-- ==== Sys2Proof/Word.lean ====
section
/-! DEFINITION. The word types of the PSW block (00_scope.md R6, R7, R8, R14, R15). -/

namespace Sys2Proof

/-- One byte: a device command byte, a data byte, a PEC, a termination status (R8, R14). -/
abbrev Byte := BitVec 8

/-- One device word, moved as two bytes (R7). -/
abbrev Word16 := BitVec 16

/-- One word of the host port (R15). -/
abbrev Word32 := BitVec 32

/-- A 7-bit device address (R6). -/
abbrev Addr7 := BitVec 7

end Sys2Proof
end

