-- ==== Sys2Proof/Config.lean ====
section
/-! DEFINITION. What is fixed for the block: constants of 00_scope.md R8 to R11, the timing parameters of R12 and
R13, and the free values of 20_memory.md R59 and 10_state.md R38. -/

namespace Sys2Proof

/-- The timing parameters, each in whole milliseconds (00_scope.md R12, R13; log entry 7). They are arguments of the
model: State holds one such record and no step changes it. -/
structure Timing where
  wakeSdaLow : Nat   -- T_WAKE_SDA_LOW, at least 33
  startup    : Nat   -- T_STARTUP, at least 250
  sclLow     : Nat   -- T_SCL_LOW, at least 1.44
  eeErase    : Nat   -- T_EE_ERASE, at least 5: a duty of the host
  eeWrite    : Nat   -- T_EE_WRITE, at least 5: a duty of the host
  deriving DecidableEq, Repr

/-- The driver's values (R12, R13). -/
def Timing.default : Timing := { wakeSdaLow := 50, startup := 250, sclLow := 10, eeErase := 10, eeWrite := 10 }

/-- POLY (R8): x⁸+x²+x+1 with the x⁸ term implicit. -/
def Config.poly : Byte := 0x07#8

/-- SEED (R8). -/
def Config.seed : Byte := 0x00#8

/-- READ_LEN (R9): a word read asks for LSB, MSB and PEC. -/
def Config.readLen : Byte := 3#8

/-- SLEEP_CMD (R10). -/
def Config.sleepCmd : Byte := 0xFF#8

/-- DEFAULT_ADDR (R11): what ADDR holds after reset. -/
def Config.defaultAddr : Addr7 := 0x5A#7

/-- FREE VALUE (20_memory.md R59, log entry 2). The n-th answer of the bus environment where State lists none:
a termination status, a delivered count or a received byte. It has no body: nothing can be proved of its value. -/
opaque Config.freeDraw : Nat → Byte

/-- FREE VALUE (10_state.md R38, log entry 3). What the n-th host read of RDATA, ADDR, PEC or LINES made while
BUSY = 1 returns. It has no body: nothing can be proved of its value. -/
opaque Config.freeRead : Nat → Word32

end Sys2Proof
end

