-- ==== Sys2Proof/Syntax.lean ====
section
/-! DEFINITION. The seven commands of the block, one constructor per row of spec/opcode_table.json
(30_encoding.md R70), and the device command bytes the source names (20_memory.md R48). -/

namespace Sys2Proof

/-- A decoded command. Every operand is held at the width its field has (30_encoding.md R67, R68). -/
inductive Instr where
  | crcStep (seed data : Byte)            -- CRC_STEP, R85
  | setAddr (a8 : Byte)                   -- SET_ADDR, R89: the range is checked when it executes
  | probe                                 -- PROBE, R90
  | readWord (reg : Byte)                 -- READ_WORD, R91
  | writeWord (reg : Byte) (w : Word16)   -- WRITE_WORD, R92
  | sleep                                 -- SLEEP, R94
  | wake                                  -- WAKE, R95
  deriving DecidableEq, Repr

/-- The names the source gives to device command bytes (20_memory.md R48). The block checks none of them. -/
inductive DevReg where
  | ta | tobj1 | tobj2 | tomax | tomin | ke | address | id0 | id1 | id2 | id3 | sleep
  deriving DecidableEq, Repr

end Sys2Proof
end

