-- ==== Sys2Proof/WellFormed.lean ====
section
/-! DEFINITION. What may be built but is not meant: the constraints on the timing parameters (00_scope.md R12, R13),
and the well-formedness of a command. -/

namespace Sys2Proof

/-- The constraints of R12 and R13. A configuration that breaks one is refused (93_implementation_defined.md S5).
The floor of T_SCL_LOW is 1.44 ms, so it is compared in hundredths of a millisecond. -/
def Timing.wf (t : Timing) : Bool :=
  decide (33 ≤ t.wakeSdaLow) && decide (250 ≤ t.startup) && decide (144 ≤ 100 * t.sclLow) &&
  decide (5 ≤ t.eeErase) && decide (5 ≤ t.eeWrite)

/-- Every term of Instr is well formed: each operand's type has exactly the width of its field, any REG is accepted
(30_encoding.md R67) and the range of SET_ADDR's operand is checked when it executes, not before (R68). The words that
are not commands are refused by the decoder, by name. -/
def Instr.wf : Instr → Bool
  | .crcStep _ _ => true
  | .setAddr _ => true
  | .probe => true
  | .readWord _ => true
  | .writeWord _ _ => true
  | .sleep => true
  | .wake => true

end Sys2Proof
end

