-- ==== Sys2Proof/Decode.lean ====
section
/-! DEFINITION. The command word (30_encoding.md R66 to R72): its fields, the decoder, the encoder, and the command map
as a table. -/

namespace Sys2Proof

/-- OP, bits [31:28] (R66). -/
def opField (c : Word32) : BitVec 4 := c.extractLsb' 28 4
/-- RSV, bits [27:24] (R66). -/
def rsvField (c : Word32) : BitVec 4 := c.extractLsb' 24 4
/-- REG, bits [23:16] (R66). -/
def regField (c : Word32) : Byte := c.extractLsb' 16 8
/-- HI, bits [15:8] (R66). -/
def hiField (c : Word32) : Byte := c.extractLsb' 8 8
/-- LO, bits [7:0] (R66). -/
def loField (c : Word32) : Byte := c.extractLsb' 0 8
/-- WDATA, bits [15:0] (R66). -/
def wdataField (c : Word32) : Word16 := c.extractLsb' 0 16

/-- Why a word is no command (R69, R71). -/
inductive IllegalWord where
  | opUndefined   -- OP is 0x0 or 0x8 to 0xF
  | rsvNonzero    -- RSV is not 0
  | regNonzero    -- REG is not 0 and the OP does not use it
  | hiNonzero     -- HI is not 0 and the OP does not use it
  | loNonzero     -- LO is not 0 and the OP does not use it
  deriving DecidableEq, Repr

/-- A field the command does not use must be 0 (R69). -/
def needZero (f : Byte) (e : IllegalWord) (rest : Except IllegalWord Instr) : Except IllegalWord Instr :=
  if f = 0#8 then rest else .error e

/-- The fields of the command selected by OP, RSV being 0 (R70). -/
def decodeOp (c : Word32) : Except IllegalWord Instr :=
  if opField c = 0x1#4 then
    needZero (regField c) .regNonzero (.ok (.crcStep (hiField c) (loField c)))
  else if opField c = 0x2#4 then
    needZero (regField c) .regNonzero (needZero (hiField c) .hiNonzero (.ok (.setAddr (loField c))))
  else if opField c = 0x3#4 then
    needZero (regField c) .regNonzero (needZero (hiField c) .hiNonzero (needZero (loField c) .loNonzero (.ok .probe)))
  else if opField c = 0x4#4 then
    needZero (hiField c) .hiNonzero (needZero (loField c) .loNonzero (.ok (.readWord (regField c))))
  else if opField c = 0x5#4 then
    .ok (.writeWord (regField c) (wdataField c))
  else if opField c = 0x6#4 then
    needZero (regField c) .regNonzero (needZero (hiField c) .hiNonzero (needZero (loField c) .loNonzero (.ok .sleep)))
  else if opField c = 0x7#4 then
    needZero (regField c) .regNonzero (needZero (hiField c) .hiNonzero (needZero (loField c) .loNonzero (.ok .wake)))
  else .error .opUndefined

/-- The decoder, total on the 2³² words: a command, or the name of what makes the word illegal (R70, R71). -/
def decode (c : Word32) : Except IllegalWord Instr :=
  if rsvField c = 0#4 then decodeOp c else .error .rsvNonzero

/-- A command word from its five fields, OP in the high bits (R66). -/
def packWord (op : BitVec 4) (reg hi lo : Byte) : Word32 := op ++ 0#4 ++ reg ++ hi ++ lo

/-- The encoder, from the same command map (R70). -/
def encode : Instr → Word32
  | .crcStep seed data => packWord 0x1#4 0#8 seed data
  | .setAddr a8 => packWord 0x2#4 0#8 0#8 a8
  | .probe => packWord 0x3#4 0#8 0#8 0#8
  | .readWord reg => packWord 0x4#4 reg 0#8 0#8
  | .writeWord reg w => packWord 0x5#4 reg (w.extractLsb' 8 8) (w.extractLsb' 0 8)
  | .sleep => packWord 0x6#4 0#8 0#8 0#8
  | .wake => packWord 0x7#4 0#8 0#8 0#8

/-- One row of the command map (R70). -/
structure CmdRow where
  mnemonic : String
  value    : Word32   -- the column "match"
  mask     : Word32
  deriving DecidableEq, Repr

/-- The row of the command map that a command belongs to (R70). -/
def Instr.row : Instr → CmdRow
  | .crcStep _ _ => ⟨"CRC_STEP", 0x10000000#32, 0xFFFF0000#32⟩
  | .setAddr _ => ⟨"SET_ADDR", 0x20000000#32, 0xFFFFFF00#32⟩
  | .probe => ⟨"PROBE", 0x30000000#32, 0xFFFFFFFF#32⟩
  | .readWord _ => ⟨"READ_WORD", 0x40000000#32, 0xFF00FFFF#32⟩
  | .writeWord _ _ => ⟨"WRITE_WORD", 0x50000000#32, 0xFF000000#32⟩
  | .sleep => ⟨"SLEEP", 0x60000000#32, 0xFFFFFFFF#32⟩
  | .wake => ⟨"WAKE", 0x70000000#32, 0xFFFFFFFF#32⟩

/-- The whole command map (R70). -/
def commandMap : List CmdRow :=
  [Instr.row (.crcStep 0#8 0#8), Instr.row (.setAddr 0#8), Instr.row .probe, Instr.row (.readWord 0#8),
   Instr.row (.writeWord 0#8 0#16), Instr.row .sleep, Instr.row .wake]

/-- A word selects the row for which (c & mask) == match (R70). -/
def CmdRow.selects (r : CmdRow) (c : Word32) : Bool := c &&& r.mask == r.value

/-- The byte of a named device register (20_memory.md R48). -/
def DevReg.byte : DevReg → Byte
  | .ta => 0x06#8 | .tobj1 => 0x07#8 | .tobj2 => 0x08#8
  | .tomax => 0x20#8 | .tomin => 0x21#8 | .ke => 0x24#8 | .address => 0x2E#8
  | .id0 => 0x3C#8 | .id1 => 0x3D#8 | .id2 => 0x3E#8 | .id3 => 0x3F#8
  | .sleep => 0xFF#8

/-- The command read from a word numbered as spec/opcode_table.json numbers its bits. A command word has exactly 32
bits (R72), so a longer row has none, and the bits above nbits are 0. -/
def decodeTableWord (nbits w : Nat) : Option Instr :=
  if nbits ≤ 32 then (decode (BitVec.ofNat 32 (w % 2 ^ nbits))).toOption else none

end Sys2Proof
end

