-- ==== Sys2Proof/Machine/State.lean ====
section
/-! DEFINITION. The state of the block and of what stands around it, as plain data: the host-visible registers, the
sequencer phase and the line modes (10_state.md), the model's records FAULTS and trace, the answers of the bus
environment, the timing parameters, and the host's program. -/

namespace Sys2Proof.Machine

/-- The two bus lines (00_scope.md R18). -/
inductive Line where
  | scl | sda
  deriving DecidableEq, Repr

/-- What a Gpio event may set a line to (R18). A Gpio event can not give a line to the bus master. -/
inductive GpioMode where
  | input | outputLow
  deriving DecidableEq, Repr

/-- The mode of a line (10_state.md R40). The encoding 3 does not exist here, as it is never written. -/
inductive LineMode where
  | bus         -- 0: the bus master has custody
  | input       -- 1: released by the block
  | outputLow   -- 2: driven low by the block
  deriving DecidableEq, Repr

/-- The error kinds of STATUS.ERR (60_exceptions.md R100). The codes 6 to 15 do not exist here, as they are never written. -/
inductive ErrKind where
  | none | nak | pecMismatch | shortRead | badArg | illegalCmd
  deriving DecidableEq, Repr

/-- The host-protocol faults (60_exceptions.md R108): recorded in FAULTS, not an outcome of the step that records them. -/
inductive HostFault where
  | cmdWhileBusy     -- F_CMD_WHILE_BUSY
  | busWhileParked   -- F_BUS_WHILE_PARKED
  | hostAccess       -- F_HOST_ACCESS
  deriving DecidableEq, Repr

/-- A port event with its arguments and its drawn result (20_memory.md R60). -/
inductive Event where
  | bmBegin (a : Addr7)
  | bmWrite (b : Byte)
  | bmEnd (stop : Bool) (s : Byte)
  | bmRequest (a : Addr7) (n k : Byte)
  | bmRead (b : Byte)
  | gpio (line : Line) (mode : GpioMode)
  | delay (ms : Nat)
  deriving DecidableEq, Repr

/-- The sequencer phase (10_state.md R39): IDLE, or the command being carried out, with its operands, and the index of
its next step. OPC is the OP field of `cmd`. -/
inductive Phase where
  | idle
  | run (cmd : Instr) (step : BitVec 4)
  deriving DecidableEq, Repr

/-- One act of the host (10_state.md R25, 30_encoding.md R77, R78, 70_reset_and_hazards.md R117). -/
inductive HostAct where
  | write (off size : Nat) (data : Word32)  -- a write of `size` bytes at byte offset `off`; a whole word has size 4
  | read (off size : Nat)                   -- a read of `size` bytes at byte offset `off`
  | crcNext (b : Byte)                      -- PEC_OF: CRC_STEP r, b with r read from PEC.CRC
  | waitMs (n : Nat)                        -- WAIT_MS n
  | ifFail (target : Nat)                   -- IF_FAIL: go on at line `target` if STATUS.OK = 0
  | reset                                   -- reset of the block
  deriving DecidableEq, Repr

/-- One line of the host's program. `during = none`: the host waits for BUSY = 0 first (R77). `during = some k`: it acts
as soon as the running command has reached STEP k, without waiting (log entry 1). -/
structure HostLine where
  act    : HostAct
  during : Option Nat
  deriving DecidableEq, Repr

/-- What the host did and saw, in order. -/
inductive HostEvent where
  | wrote (off : Nat) (data : Word32)
  | gotWord (off : Nat) (value : Word32)
  | waited (ms : Nat)
  | ended (ok : Bool)  -- a command completed: BUSY went to 0, with that STATUS.OK (70_reset_and_hazards.md R130)
  | wasReset           -- the block was reset
  deriving DecidableEq, Repr

/-- The state. The names are the spec's; `draws`, `drawCount`, `freeReadCount`, `program`, `hpc` and `hostLog` are the model's own
(INVENTORY.md, State). -/
structure State where
  busy   : Bool          -- STATUS.BUSY, R27
  ok     : Bool          -- STATUS.OK, R28
  parked : Bool          -- STATUS.PARKED, R29
  err    : ErrKind       -- STATUS.ERR, R31
  bmStatus : Byte        -- STATUS.BM_STATUS, R32
  rdata  : Word16        -- RDATA[15:0], R34
  addr   : Addr7         -- ADDR[6:0], R35
  crc    : Byte          -- PEC.CRC, R36
  pecRx  : Byte          -- PEC.PEC_RX, R37
  sclMode : LineMode     -- LINES.SCL_MODE, R40
  sdaMode : LineMode     -- LINES.SDA_MODE, R40
  phase  : Phase         -- PHASE, R39
  lsb    : Byte          -- READ_WORD's first data byte, R44
  msb    : Byte          -- READ_WORD's second data byte, R44
  faults : List HostFault -- FAULTS, R45: a set, held without repeats
  trace  : List Event    -- the event trace, R60, oldest first
  draws  : List Byte     -- the bus environment's next answers, R59; beyond them the answers are Config.freeDraw
  drawCount : Nat        -- how many answers were taken
  freeReadCount : Nat    -- how many unspecified register reads were made, R38
  timing : Timing        -- the timing parameters, R12, R13
  program : List HostLine -- the host's program, R77
  hpc    : Nat           -- the host's next line
  hostLog : List HostEvent -- what the host did and saw, oldest first
  deriving DecidableEq, Repr

/-- Why the machine stops with a fault. -/
inductive Fault where
  /-- Raised by `nextMove` when FAULTS is not empty: the state after a host-protocol fault has no successor
  (60_exceptions.md R108, 93_implementation_defined.md S3). Safe. -/
  | stuckAfterHostFault
  /-- Raised by a whole-word host access at an offset above 0x3C, which the host register space does not hold
  (20_memory.md R46, log entry 6). Safe. -/
  | hostOffsetOutside
  deriving DecidableEq, Repr

/-- What the model has no move for. -/
inductive Refusal where
  /-- An instruction with no meaning yet; raised by no arm of `exec` in this model. Safe. -/
  | notModelled (mnemonic : String)
  /-- Raised by `nextMove` when a timing parameter is below its floor (00_scope.md R12, 93 S5). Safe. -/
  | illFormedTiming
  /-- Raised by a reset while BUSY = 1 (70_reset_and_hazards.md R118, 93 S4). Safe. -/
  | resetWhileBusy
  deriving DecidableEq, Repr

/-- The state right after reset (70_reset_and_hazards.md R117), with the default timing and no host program. -/
def State.reset : State where
  busy := false
  ok := false
  parked := false
  err := .none
  bmStatus := 0#8
  rdata := 0#16
  addr := Config.defaultAddr
  crc := Config.seed
  pecRx := 0#8
  sclMode := .bus
  sdaMode := .bus
  phase := .idle
  lsb := 0#8
  msb := 0#8
  faults := []
  trace := []
  draws := []
  drawCount := 0
  freeReadCount := 0
  timing := Timing.default
  program := []
  hpc := 0
  hostLog := []

end Sys2Proof.Machine
end

