-- ==== Sys2Proof/Machine/Ops.lean ====
section
/-! DEFINITION. The named operations of the block: the port primitives (00_scope.md R18), raising an error
(60_exceptions.md R103), recording a host-protocol fault (R108), acceptance (R99), and the sequencer (10_state.md R39). -/

namespace Sys2Proof.Machine

/-! ### The bus environment (20_memory.md R59) -/

/-- The next answer of the bus environment. -/
def State.draw (s : State) : Byte := s.draws.headD (Config.freeDraw s.drawCount)

/-- The state once that answer is taken. -/
def State.afterDraw (s : State) : State := { s with draws := s.draws.tail, drawCount := s.drawCount + 1 }

/-- The k-th answer from here on; `drawAt 0` is the next one. -/
def State.drawAt (s : State) (k : Nat) : Byte := s.draws.getD k (Config.freeDraw (s.drawCount + k))

/-! ### The port primitives (R18), each recorded in the trace (20_memory.md R60) -/

/-- One more event in the trace. -/
def State.emit (s : State) (e : Event) : State := { s with trace := s.trace ++ [e] }

/-- BmBegin(ADDR): every transmission is addressed to ADDR (20_memory.md R47). -/
def bmBegin (s : State) : State := s.emit (.bmBegin s.addr)

/-- BmWrite(b8). -/
def bmWrite (b : Byte) (s : State) : State := s.emit (.bmWrite b)

/-- The state after BmEnd(stop); the status it returns is `s.draw`. -/
def bmEnd (stop : Bool) (s : State) : State := s.afterDraw.emit (.bmEnd stop s.draw)

/-- The state after BmRequest(ADDR, READ_LEN, stop = 1); the count it returns is `s.draw`. -/
def bmRequest (s : State) : State := s.afterDraw.emit (.bmRequest s.addr Config.readLen s.draw)

/-- The state after BmRead(); the byte it returns is `s.draw`. -/
def bmRead (s : State) : State := s.afterDraw.emit (.bmRead s.draw)

/-- The line mode a Gpio mode stands for. -/
def GpioMode.toLineMode : GpioMode → LineMode
  | .input => .input
  | .outputLow => .outputLow

/-- The mode field of one line of LINES (10_state.md R40). -/
def State.setLine (s : State) (line : Line) (m : LineMode) : State :=
  { s with sclMode := if line = .scl then m else s.sclMode
           sdaMode := if line = .sda then m else s.sdaMode }

/-- Gpio(line, mode): the event, and that line's field of LINES (42_sleep_wake.md R93). -/
def gpio (line : Line) (mode : GpioMode) (s : State) : State :=
  (s.emit (.gpio line mode)).setLine line mode.toLineMode

/-- Delay(ms). -/
def delay (ms : Nat) (s : State) : State := s.emit (.delay ms)

/-! ### How a command ends -/

/-- BUSY <- 0 and pc <- IDLE (60_exceptions.md R99, R103). -/
def State.toIdle (s : State) : State := { s with busy := false, phase := .idle }

/-- raise E (00_scope.md R20, 60_exceptions.md R103). -/
def raise (e : ErrKind) (s : State) : State := ({ s with err := e, ok := false } : State).toIdle

/-- STATUS.ERR <- NONE; STATUS.OK <- 1; pc <- IDLE: the end of a command that succeeded. -/
def succeed (s : State) : State := ({ s with err := .none, ok := true } : State).toIdle

/-- raise NAK if the status is non-zero, else go on with `k` (R100). -/
def nakUnlessZero (status : Byte) (k : State → State) (s : State) : State :=
  if status = 0#8 then k s else raise .nak s

/-! ### Host-protocol faults (R108) -/

/-- Put a fault into FAULTS; nothing else changes. -/
def State.recordFault (s : State) (f : HostFault) : State := { s with faults := s.faults.insert f }

/-! ### Acceptance (R99) -/

/-- BUSY <- 1, OK <- 0, ERR <- NONE. -/
def State.accepted (s : State) : State := { s with busy := true, ok := false, err := .none }

/-- pc <- (op, STEP 0). -/
def State.enter (s : State) (i : Instr) : State := { s with phase := .run i 0#4 }

/-- The first check of acceptance: a write to CMD while BUSY = 1 is F_CMD_WHILE_BUSY and nothing more (R99). -/
def whenNotBusy (s : State) (k : State → State) : State :=
  if s.busy then s.recordFault .cmdWhileBusy else k s.accepted

/-- The parked check of acceptance, for PROBE, READ_WORD, WRITE_WORD and SLEEP (R99, log entry 4). -/
def whenNotParked (s : State) (k : State → State) : State :=
  if s.parked then s.recordFault .busWhileParked else k s

/-- An accepted word that is no command completes at once with ILLEGAL_CMD (R102). -/
def illegalWord (s : State) : State :=
  whenNotBusy s fun a => { a with busy := false, ok := false, err := .illegalCmd }

/-! ### The sequencer (10_state.md R39) -/

/-- What one step of a command does, not counting STEP <- STEP + 1. -/
abbrev SeqAct := State → State

/-- STEP <- STEP + 1, unless the step ended the command. -/
def Phase.next : Phase → Phase
  | .idle => .idle
  | .run i n => .run i (n + 1#4)

/-- No command is being carried out. -/
def Phase.isIdle : Phase → Bool
  | .idle => true
  | .run _ _ => false

/-- STEP <- STEP + 1 in the state. -/
def State.bump (s : State) : State := { s with phase := s.phase.next }

/-- The host's next line, if its program has one. -/
def State.nextLine (s : State) : Option HostLine := s.program[s.hpc]?

/-- The host's next line is one it makes without waiting, and the running command has reached its STEP (log entry 1). -/
def State.hostDue (s : State) : Bool :=
  match s.phase, s.nextLine with
  | .run _ n, some l =>
    match l.during with
    | some k => decide (k ≤ n.toNat)
    | none => false
  | _, _ => false

/-- One step of the running command: the action at index STEP of its list, then STEP <- STEP + 1. Past the end of the
list nothing happens (log entry 17). -/
def seqTick (steps : List SeqAct) (s : State) : State :=
  match s.phase with
  | .idle => s
  | .run _ n =>
    match steps[n.toNat]? with
    | some act => (act s).bump
    | none => s

/-- Up to `fuel` steps of the running command, until it ends or the host acts. -/
def runSteps (steps : List SeqAct) : Nat → State → State
  | 0, s => s
  | fuel + 1, s => if s.phase.isIdle || s.hostDue then s else runSteps steps fuel (seqTick steps s)

/-- No command has more than 16 steps (R39). -/
def maxSteps : Nat := 16

/-- A command that uses no bus: acceptance, then its steps (R99). -/
def start (i : Instr) (steps : List SeqAct) (s : State) : State :=
  whenNotBusy s fun a => runSteps steps maxSteps (a.enter i)

/-- A command that uses the bus and may not be written while PARKED = 1 (R86, R94, R99). -/
def startBus (i : Instr) (steps : List SeqAct) (s : State) : State :=
  whenNotBusy s fun a => whenNotParked a fun b => runSteps steps maxSteps (b.enter i)

end Sys2Proof.Machine
end

