-- ==== Sys2Proof/Machine/Operands.lean ====
section
/-! DEFINITION. The operand forms: the two halves of a word (30_encoding.md R68), the address bytes
(20_memory.md R47), and word assembly (R50). -/

namespace Sys2Proof.Machine

/-- LSB = w[7:0] (20_memory.md R50). -/
def lsbOf (w : Word16) : Byte := w.extractLsb' 0 8

/-- MSB = w[15:8] (20_memory.md R50). -/
def msbOf (w : Word16) : Byte := w.extractLsb' 8 8

/-- {MSB, LSB} (20_memory.md R50). -/
def wordOf (msb lsb : Byte) : Word16 := msb ++ lsb

/-- The write-phase address byte ADDR<<1, in 8 bits (20_memory.md R47). -/
def addrByteW (a : Addr7) : Byte := a.zeroExtend 8 <<< 1

/-- The read-phase address byte (ADDR<<1)|1 (20_memory.md R47). -/
def addrByteR (a : Addr7) : Byte := (a.zeroExtend 8 <<< 1) ||| 1#8

/-- SET_ADDR's range: a8 = 0 or a8[7] = 1 is out of it (41_smbus_codec.md R89). -/
def legalAddr (a8 : Byte) : Bool := a8 != 0#8 && !a8.getLsbD 7

/-- a8[6:0] (R89). -/
def lowSeven (a8 : Byte) : Addr7 := a8.extractLsb' 0 7

end Sys2Proof.Machine
end

