-- ==== Sys2Proof/Machine/Flags.lean ====
section
/-! DEFINITION. The host-visible words: how the fields of STATUS, RDATA, ADDR, PEC and LINES are laid out in 32 bits
(10_state.md R24 to R40). -/

namespace Sys2Proof.Machine

/-- The code of an error kind (60_exceptions.md R100). -/
def ErrKind.code : ErrKind → BitVec 4
  | .none => 0#4 | .nak => 1#4 | .pecMismatch => 2#4 | .shortRead => 3#4 | .badArg => 4#4 | .illegalCmd => 5#4

/-- The code of a line mode (10_state.md R40). -/
def LineMode.code : LineMode → BitVec 2
  | .bus => 0#2 | .input => 1#2 | .outputLow => 2#2

/-- STATUS: BM_STATUS in [15:8], ERR in [7:4], bit 3 reserved, PARKED, OK, BUSY in bits 2, 1, 0 (R27 to R33). -/
def State.statusWord (s : State) : Word32 :=
  0#16 ++ s.bmStatus ++ s.err.code ++ 0#1 ++ BitVec.ofBool s.parked ++ BitVec.ofBool s.ok ++ BitVec.ofBool s.busy

/-- RDATA (R34). -/
def State.rdataWord (s : State) : Word32 := 0#16 ++ s.rdata

/-- ADDR (R35). -/
def State.addrWord (s : State) : Word32 := 0#25 ++ s.addr

/-- PEC: PEC_RX in [15:8], CRC in [7:0] (R36, R37). -/
def State.pecWord (s : State) : Word32 := 0#16 ++ s.pecRx ++ s.crc

/-- LINES: SDA_MODE in [3:2], SCL_MODE in [1:0] (R40). -/
def State.linesWord (s : State) : Word32 := 0#28 ++ s.sdaMode.code ++ s.sclMode.code

/-- OPC of the sequencer phase: the OP field of the running command, or none when IDLE (R39). -/
def Phase.opc : Phase → Option (BitVec 4)
  | .idle => none
  | .run i _ => some (opField (encode i))

end Sys2Proof.Machine
end

