-- ==== Sys2Proof/Machine/Crc.lean ====
section
/-! DEFINITION. The CRC-8 PEC generator (40_crc.md R79 to R85): the step, the fold, the streams, and CRC_STEP. -/

namespace Sys2Proof.Machine

/-- One of the eight iterations: shift left in 8 bits, and XOR POLY if v[7] was 1 (R79). -/
def crcShift (v : Byte) : Byte := if v.getLsbD 7 then (v <<< 1) ^^^ Config.poly else v <<< 1

/-- n iterations. -/
def crcShifts : Nat → Byte → Byte
  | 0, v => v
  | n + 1, v => crcShifts n (crcShift v)

/-- crc8_step: one XOR before exactly 8 iterations (R79, 90_conflicts.md C1). -/
def crc8Step (c d : Byte) : Byte := crcShifts 8 (c ^^^ d)

/-- pec: the left fold of crc8_step from SEED, in wire order (R81). -/
def pec (l : List Byte) : Byte := l.foldl crc8Step Config.seed

/-- The stream of a word read (R83). -/
def readStream (a : Addr7) (reg lsb msb : Byte) : List Byte := [addrByteW a, reg, addrByteR a, lsb, msb]

/-- The stream of a word write (R83). -/
def writeStream (a : Addr7) (reg : Byte) (w : Word16) : List Byte := [addrByteW a, reg, lsbOf w, msbOf w]

/-- The stream of the sleep send-byte (R83). -/
def sleepStream (a : Addr7) : List Byte := [addrByteW a, Config.sleepCmd]

/-- CRC_STEP's one internal step: PEC.CRC <- crc8_step(seed, data), and success (R85, log entry 8). -/
def crcStepSteps (seed data : Byte) : List SeqAct :=
  [fun s => succeed { s with crc := crc8Step seed data }]

/-- CRC_STEP (R85): legal while PARKED = 1. -/
def execCrcStep (seed data : Byte) (s : State) : Host.Outcome State Fault Refusal :=
  .next (start (.crcStep seed data) (crcStepSteps seed data) s)

end Sys2Proof.Machine
end

