-- ==== Sys2Proof/Machine/Codec.lean ====
section
/-! DEFINITION. The SMBus word codec (41_smbus_codec.md R86 to R92): SET_ADDR, PROBE, READ_WORD, WRITE_WORD. The list of
each command is its pseudocode, the index in the list being STEP. -/

namespace Sys2Proof.Machine

/-- SET_ADDR's one internal step (R89, log entry 8). -/
def setAddrAct (a8 : Byte) (s : State) : State :=
  if legalAddr a8 then succeed { s with addr := lowSeven a8 } else raise .badArg s

/-- SET_ADDR (R89). -/
def setAddrSteps (a8 : Byte) : List SeqAct := [setAddrAct a8]

/-- SET_ADDR (R89): no port is used, legal while PARKED = 1. -/
def execSetAddr (a8 : Byte) (s : State) : Host.Outcome State Fault Refusal :=
  .next (start (.setAddr a8) (setAddrSteps a8) s)

/-- BmEnd(stop) whose status goes to BM_STATUS (10_state.md R32). -/
def bmEndRecorded (stop : Bool) (s : State) : State := { bmEnd stop s with bmStatus := s.draw }

/-- PROBE STEP 1 and WRITE_WORD STEP 6: the stop end whose status decides the command (R90, R92). -/
def finalEnd (s : State) : State := nakUnlessZero s.draw succeed (bmEndRecorded true s)

/-- PROBE (R90). -/
def probeSteps : List SeqAct := [bmBegin, finalEnd]

/-- PROBE (R90). -/
def execProbe (s : State) : Host.Outcome State Fault Refusal :=
  .next (startBus .probe probeSteps s)

/-- READ_WORD STEP 2: the repeated-start end; NAK on a non-zero status (R91, 90_conflicts.md C7). -/
def readSelect (s : State) : State := nakUnlessZero s.draw id (bmEndRecorded false s)

/-- READ_WORD STEP 3: three bytes are requested; any other count is SHORT_READ (R91). -/
def readRequest (s : State) : State :=
  if s.draw = Config.readLen then bmRequest s else raise .shortRead (bmRequest s)

/-- READ_WORD STEP 4. -/
def readLsb (s : State) : State := { bmRead s with lsb := s.draw }

/-- READ_WORD STEP 5. -/
def readMsb (s : State) : State := { bmRead s with msb := s.draw }

/-- READ_WORD STEP 6: PEC.PEC_RX <- p. -/
def readPec (s : State) : State := { bmRead s with pecRx := s.draw }

/-- READ_WORD STEP 7: PEC.CRC <- calc, PEC_MISMATCH or RDATA <- {msb, lsb} (R91). -/
def readCheck (reg : Byte) (s : State) : State :=
  let computed := pec (readStream s.addr reg s.lsb s.msb)
  if computed = s.pecRx then succeed { s with crc := computed, rdata := wordOf s.msb s.lsb }
  else raise .pecMismatch { s with crc := computed }

/-- READ_WORD (R91). -/
def readWordSteps (reg : Byte) : List SeqAct :=
  [bmBegin, bmWrite reg, readSelect, readRequest, readLsb, readMsb, readPec, readCheck reg]

/-- READ_WORD (R91). -/
def execReadWord (reg : Byte) (s : State) : Host.Outcome State Fault Refusal :=
  .next (startBus (.readWord reg) (readWordSteps reg) s)

/-- `calc` of WRITE_WORD: the PEC of its stream. ADDR can not change during the command, so STEP 5 sends the value that
STEP 0 stored (R92, log entry 11). -/
def writePec (reg : Byte) (w : Word16) (s : State) : Byte := pec (writeStream s.addr reg w)

/-- WRITE_WORD (R92). -/
def writeWordSteps (reg : Byte) (w : Word16) : List SeqAct :=
  [fun s => { s with crc := writePec reg w s },
   bmBegin, bmWrite reg, bmWrite (lsbOf w), bmWrite (msbOf w),
   fun s => bmWrite (writePec reg w s) s,
   finalEnd]

/-- WRITE_WORD (R92). -/
def execWriteWord (reg : Byte) (w : Word16) (s : State) : Host.Outcome State Fault Refusal :=
  .next (startBus (.writeWord reg w) (writeWordSteps reg w) s)

end Sys2Proof.Machine
end

