-- ==== Sys2Proof/Machine/SleepWake.lean ====
section
/-! DEFINITION. The sleep/wake sequencer (42_sleep_wake.md R93 to R98): SLEEP and WAKE. The list of each command is its
pseudocode, the index in the list being STEP. -/

namespace Sys2Proof.Machine

/-- `calc` of SLEEP (R94, log entry 11). -/
def sleepPec (s : State) : Byte := pec (sleepStream s.addr)

/-- SLEEP STEP 6: SDA released, PARKED <- 1, and only then NAK if the status of STEP 4, which BM_STATUS holds, is not 0
(R94). -/
def sleepPark (s : State) : State :=
  nakUnlessZero s.bmStatus succeed { gpio .sda .input s with parked := true }

/-- SLEEP (R94). -/
def sleepSteps : List SeqAct :=
  [fun s => { s with crc := sleepPec s },
   bmBegin, bmWrite Config.sleepCmd,
   fun s => bmWrite (sleepPec s) s,
   bmEndRecorded true,
   gpio .scl .outputLow,
   sleepPark]

/-- SLEEP (R94). -/
def execSleep (s : State) : Host.Outcome State Fault Refusal :=
  .next (startBus .sleep sleepSteps s)

/-- WAKE STEP 9: the transmission is begun, both lines go back to the bus master, PARKED <- 0, and success (R95). -/
def wakeHandBack (s : State) : State :=
  succeed { bmBegin s with sclMode := .bus, sdaMode := .bus, parked := false }

/-- WAKE (R95). STEP 0 draws a status that is neither recorded in BM_STATUS nor tested. -/
def wakeSteps : List SeqAct :=
  [bmEnd true,
   gpio .scl .input,
   gpio .sda .outputLow,
   fun s => delay s.timing.wakeSdaLow s,
   gpio .sda .input,
   fun s => delay s.timing.startup s,
   gpio .scl .outputLow,
   fun s => delay s.timing.sclLow s,
   gpio .scl .input,
   wakeHandBack]

/-- WAKE (R95): legal with PARKED = 1 and with PARKED = 0. -/
def execWake (s : State) : Host.Outcome State Fault Refusal :=
  .next (start .wake wakeSteps s)

end Sys2Proof.Machine
end

