-- ==== Sys2Proof/Machine/Dispatch.lean ====
section
/-! DEFINITION. One arm per command: which meaning each has (30_encoding.md R70). -/

namespace Sys2Proof.Machine

def exec (i : Instr) (s : State) : Host.Outcome State Fault Refusal :=
  match i with
  | .crcStep seed data => Sys2Proof.Machine.execCrcStep seed data s
  | .setAddr a8 => Sys2Proof.Machine.execSetAddr a8 s
  | .probe => Sys2Proof.Machine.execProbe s
  | .readWord reg => Sys2Proof.Machine.execReadWord reg s
  | .writeWord reg w => Sys2Proof.Machine.execWriteWord reg w s
  | .sleep => Sys2Proof.Machine.execSleep s
  | .wake => Sys2Proof.Machine.execWake s

end Sys2Proof.Machine
end

