-- ==== Sys2Proof/Machine/HostPort.lean ====
section
/-! DEFINITION. The host port (10_state.md R24 to R26, R38), the host's acts (30_encoding.md R77), and which agent moves
next. -/

namespace Sys2Proof.Machine

/-! ### Reads -/

/-- What a word read at an offset returns while BUSY = 0 (R24, R25). -/
def registerWord (off : Nat) (s : State) : Word32 :=
  if off = 0x04 then s.statusWord
  else if off = 0x08 then s.rdataWord
  else if off = 0x0C then s.addrWord
  else if off = 0x10 then s.pecWord
  else if off = 0x14 then s.linesWord
  else 0#32

/-- The registers whose value a read while BUSY = 1 does not give: RDATA, ADDR, PEC, LINES (R38). -/
def unspecifiedWhileBusy (off : Nat) : Bool := off == 0x08 || off == 0x0C || off == 0x10 || off == 0x14

/-- The value of a whole-word read, a free value where R38 leaves it unspecified. -/
def readValue (off : Nat) (s : State) : Word32 :=
  if s.busy && unspecifiedWhileBusy off then Config.freeRead s.freeReadCount else registerWord off s

/-- The state after a whole-word read: only the model's records change. -/
def afterRead (off : Nat) (s : State) : State :=
  { s with hostLog := s.hostLog ++ [.gotWord off (readValue off s)]
           freeReadCount := if s.busy && unspecifiedWhileBusy off then s.freeReadCount + 1 else s.freeReadCount }

/-! ### Accesses -/

/-- A whole 32-bit word at an offset that is a multiple of 4 (R25). -/
def wholeWord (off size : Nat) : Bool := size == 4 && off % 4 == 0

/-- An access is F_HOST_ACCESS unless it is a whole aligned word (R25, R108), whether BUSY or not (log entry 20), and
outside the host register space above offset 0x3C (20_memory.md R46, log entry 6). -/
def hostAccess (off size : Nat) (s : State) (k : Host.Outcome State Fault Refusal) : Host.Outcome State Fault Refusal :=
  if wholeWord off size then
    if off ≤ 0x3C then k else .fault .hostOffsetOutside
  else .next (s.recordFault .hostAccess)

/-- A host read (R25). -/
def hostRead (off size : Nat) (s : State) : Host.Outcome State Fault Refusal :=
  hostAccess off size s (.next (afterRead off s))

/-- The write in the host's log. -/
def State.logWrite (s : State) (off : Nat) (data : Word32) : State :=
  { s with hostLog := s.hostLog ++ [.wrote off data] }

/-- A write of word c to CMD (60_exceptions.md R99): the command it decodes to, or ILLEGAL_CMD. Both begin with the
check of BUSY. -/
def writeCmd (c : Word32) (s : State) : Host.Outcome State Fault Refusal :=
  match decode c with
  | .ok i => exec i s
  | .error _ => .next (illegalWord s)

/-- The completion of a command in the host's log, if it has completed: what the host gets back for its command is
BUSY = 0 and OK (70_reset_and_hazards.md R130). -/
def State.logEnd (s : State) : State :=
  { s with hostLog := if s.busy then s.hostLog else s.hostLog ++ [.ended s.ok] }

/-- The same for the outcome of a command. -/
def endLogged : Host.Outcome State Fault Refusal → Host.Outcome State Fault Refusal
  | .next t => .next t.logEnd
  | .fault r => .fault r
  | .refused r => .refused r

/-- A host write: to CMD it starts a command; to a read-only register or an unused offset it is ignored (R25). -/
def hostWrite (off size : Nat) (data : Word32) (s : State) : Host.Outcome State Fault Refusal :=
  hostAccess off size s
    (if off = 0x00 then endLogged (writeCmd data (s.logWrite off data)) else .next (s.logWrite off data))

/-! ### The host's other acts -/

/-- One step of PEC_OF (30_encoding.md R78): CRC_STEP r, b with r = PEC.CRC as a read of PEC gives it. -/
def hostCrcNext (b : Byte) (s : State) : Host.Outcome State Fault Refusal :=
  hostWrite 0x00 4 (encode (.crcStep ((readValue 0x10 s).extractLsb' 0 8) b)) (afterRead 0x10 s)

/-- WAIT_MS n: host time, no event of the block (R77). -/
def hostWait (n : Nat) (s : State) : State := { s with hostLog := s.hostLog ++ [.waited n] }

/-- IF_FAIL: the host goes on at another line if STATUS.OK = 0 (R77). -/
def hostIfFail (target : Nat) (s : State) : State := if s.ok then s else { s with hpc := target }

/-- The block after a reset (70_reset_and_hazards.md R117). No port event is issued; what is not block state stays,
and the host's log records the reset (log entry 13). -/
def resetBlock (s : State) : State :=
  { State.reset with
    faults := s.faults, trace := s.trace, draws := s.draws, drawCount := s.drawCount
    freeReadCount := s.freeReadCount, timing := s.timing, program := s.program, hpc := s.hpc
    hostLog := s.hostLog ++ [.wasReset] }

/-- A reset while BUSY = 1 is refused (R118). -/
def hostReset (s : State) : Host.Outcome State Fault Refusal :=
  if s.busy then .refused .resetWhileBusy else .next (resetBlock s)

/-- One act of the host. -/
def hostAct (a : HostAct) (s : State) : Host.Outcome State Fault Refusal :=
  match a with
  | .write off size data => hostWrite off size data s
  | .read off size => hostRead off size s
  | .crcNext b => hostCrcNext b s
  | .waitMs n => .next (hostWait n s)
  | .ifFail target => .next (hostIfFail target s)
  | .reset => hostReset s

/-! ### Which agent moves -/

/-- The step list of a command. -/
def stepsOf : Instr → List SeqAct
  | .crcStep seed data => crcStepSteps seed data
  | .setAddr a8 => setAddrSteps a8
  | .probe => probeSteps
  | .readWord reg => readWordSteps reg
  | .writeWord reg w => writeWordSteps reg w
  | .sleep => sleepSteps
  | .wake => wakeSteps

/-- The running command goes on until it ends or the host acts. -/
def resume (s : State) : State :=
  match s.phase with
  | .idle => s
  | .run i _ => runSteps (stepsOf i) maxSteps s

/-- The host takes its next line; without one it does nothing and the block waits (70_reset_and_hazards.md R117). -/
def hostMove (s : State) : Host.Outcome State Fault Refusal :=
  match s.nextLine with
  | some l => hostAct l.act { s with hpc := s.hpc + 1 }
  | none => .next s

/-- One step of the whole machine. A configuration below a floor is refused (00_scope.md R12); the state after a
host-protocol fault has no successor (93_implementation_defined.md S3); while BUSY = 1 the sequencer moves unless the
host's next line is due; while BUSY = 0 the host moves. -/
def nextMove (s : State) : Host.Outcome State Fault Refusal :=
  if !s.timing.wf then .refused .illFormedTiming
  else if !s.faults.isEmpty then .fault .stuckAfterHostFault
  else if s.busy && !s.hostDue then .next (resume s).logEnd
  else hostMove s

/-! ### Pseudo-instructions of the host (30_encoding.md R78) -/

/-- One command line: the word is written to CMD once BUSY = 0 (R77). -/
def cmdLine (i : Instr) : HostLine := { act := .write 0x00 4 (encode i), during := none }

/-- A host directive, taken once BUSY = 0. -/
def directive (a : HostAct) : HostLine := { act := a, during := none }

/-- EE_WRITE reg, w placed at line `base` of the host's program; `done` is line base + 5. -/
def eeWrite (t : Timing) (base : Nat) (reg : Byte) (w : Word16) : List HostLine :=
  [cmdLine (.writeWord reg 0#16),
   directive (.ifFail (base + 5)),
   directive (.waitMs t.eeErase),
   cmdLine (.writeWord reg w),
   directive (.waitMs t.eeWrite)]

/-- PEC_OF b0, b1, ..., bn. -/
def pecOf (b0 : Byte) (bs : List Byte) : List HostLine :=
  cmdLine (.crcStep 0x00#8 b0) :: bs.map (fun b => directive (.crcNext b))

/-- READ_TA. -/
def readTa : HostLine := cmdLine (.readWord DevReg.ta.byte)
/-- READ_TOBJ1. -/
def readTobj1 : HostLine := cmdLine (.readWord DevReg.tobj1.byte)
/-- READ_TOBJ2. -/
def readTobj2 : HostLine := cmdLine (.readWord DevReg.tobj2.byte)

/-- The host's part of the boot order (70_reset_and_hazards.md R120): WAKE if the sensor may be asleep, SET_ADDR if its
address is not the default, PROBE if the host wants it. -/
def bootLines (mayBeAsleep : Bool) (addr : Option Byte) (probeToo : Bool) : List HostLine :=
  (if mayBeAsleep then [cmdLine .wake] else []) ++
  (match addr with | some a => [cmdLine (.setAddr a)] | none => []) ++
  (if probeToo then [cmdLine .probe, directive (.read 0x04 4)] else [])

/-! ### Placing a command (for withFetchWord) -/

/-- The list with its n-th element replaced; it is filled up with `a` if it is shorter. -/
def placeAt {α : Type} (a : α) : Nat → List α → List α
  | 0, [] => [a]
  | 0, _ :: l => a :: l
  | n + 1, [] => a :: placeAt a n []
  | n + 1, x :: l => x :: placeAt a n l

/-- The host's next line is a whole-word write of c to CMD, and the block is ready to take it (log entry 12). -/
def placeCommand (c : Word32) (s : State) : State :=
  { s with program := placeAt { act := .write 0x00 4 c, during := none } s.hpc s.program
           busy := false, phase := .idle, faults := [] }

end Sys2Proof.Machine
end

