-- ==== Sys2Proof/Machine/Step.lean ====
section
/-! DEFINITION. The step of the machine, and how a command word comes to be the one that is run next. -/

namespace Sys2Proof.Machine

/-- One step (see nextMove). -/
def step (s : State) : Host.Outcome State Fault Refusal := Sys2Proof.Machine.nextMove s

/-- s with the word of that number as the host's next write to CMD. The block fetches nothing (20_memory.md R64): a
command arrives as a host write to CMD, so this stands for the host's program holding that write (log entry 12). -/
def State.withFetchWord (s : State) (nbits w : Nat) : State :=
  Sys2Proof.Machine.placeCommand (BitVec.ofNat 32 (w % 2 ^ nbits)) s

end Sys2Proof.Machine
end

