-- ==== Sys2Proof/Machine/EepromDuty.lean ====
section
/-! DEFINITION. The EEPROM duties of the host (70_reset_and_hazards.md R124, R128, R130), as a check of its log. The
block enforces none of them, and no step depends on the check. -/

namespace Sys2Proof.Machine

/-- How far the host is with one EEPROM register, and how long it has waited since the write completed. -/
inductive EeStage where
  | erased (waited : Nat)      -- the erase succeeded (R124 step 1)
  | programmed (waited : Nat)  -- the program write completed (R124 step 3), ACKed or not
  | lapsed                     -- an erase without its program write that counts no more (log entry 26)
  deriving DecidableEq, Repr

/-- The two writes of the sequence of R124. -/
inductive EeWrite where
  | erase | program
  deriving DecidableEq, Repr

/-- What the check knows after a part of the log: the EEPROM write being carried out, and the stage of every register
the host wrote. -/
structure EeCheck where
  pending : Option (Byte × EeWrite)
  stages  : List (Byte × EeStage)
  deriving DecidableEq, Repr

/-- The EEPROM registers a host may write (R124). -/
def isEeprom (reg : Byte) : Bool :=
  reg == DevReg.tomax.byte || reg == DevReg.tomin.byte || reg == DevReg.ke.byte || reg == DevReg.address.byte

/-- The stage of a register, if the host wrote it. -/
def stageOf (reg : Byte) (t : List (Byte × EeStage)) : Option EeStage := (t.find? (·.1 == reg)).map (·.2)

/-- The stages without that register's. -/
def withoutStage (reg : Byte) (t : List (Byte × EeStage)) : List (Byte × EeStage) := t.filter (·.1 != reg)

/-- More time has passed since a write completed. -/
def EeStage.addWait (n : Nat) : EeStage → EeStage
  | .erased w => .erased (w + n)
  | .programmed w => .programmed (w + n)
  | .lapsed => .lapsed

/-- The stage after the host sent SET_ADDR or reset the block: an erase counts no more. DESIGN CHOICE (log entry 26):
the spec does not say whether an erase made at one ADDR counts for a program write sent at another. -/
def EeStage.addrChanged : EeStage → EeStage
  | .erased _ => .lapsed
  | .programmed w => .programmed w
  | .lapsed => .lapsed

/-- The register may be used on the bus: it is not within T_EE_WRITE of its program write (R124 step 4). -/
def maySettle (tm : Timing) : Option EeStage → Bool
  | some (.programmed w) => decide (tm.eeWrite ≤ w)
  | _ => true

/-- Which write of the sequence a WRITE_WORD of w to a register at that stage is; none if it breaks R124. After an erase
it is the program write, whatever w is, and owes T_EE_ERASE (steps 2 and 3); otherwise it is the erase, of 0x0000 (step
1), not within T_EE_WRITE of a program write (step 4). -/
def nextEeWrite (tm : Timing) (stage : Option EeStage) (w : Word16) : Option EeWrite :=
  match stage with
  | some (.erased waited) => if tm.eeErase ≤ waited then some .program else none
  | _ => if w = 0x0000#16 && maySettle tm stage then some .erase else none

/-- The stages after the pending write has completed. An erase that was NAKed is none: the host must erase again (R128).
A program write is to be followed by its wait whether it was ACKed or not. -/
def stagesAfterWrite (ok : Bool) (t : List (Byte × EeStage)) : Option (Byte × EeWrite) → List (Byte × EeStage)
  | some (reg, .erase) => if ok then (reg, .erased 0) :: t else t
  | some (reg, .program) => (reg, .programmed 0) :: t
  | none => t

/-- The check after the host wrote that command to CMD; none if the command breaks R124. -/
def eeCommand (tm : Timing) (k : EeCheck) : Instr → Option EeCheck
  | .writeWord reg w =>
    if isEeprom reg then
      (nextEeWrite tm (stageOf reg k.stages) w).map fun e =>
        { pending := some (reg, e), stages := withoutStage reg k.stages }
    else some k
  | .readWord reg => if maySettle tm (stageOf reg k.stages) then some k else none
  | .setAddr _ => some { k with stages := k.stages.map fun e => (e.1, e.2.addrChanged) }
  | .crcStep _ _ | .probe | .sleep | .wake => some k

/-- The check after one more entry of the log; none if the entry breaks R124. -/
def eeEvent (tm : Timing) (k : EeCheck) : HostEvent → Option EeCheck
  | .wrote off c =>
    if off = 0x00 then
      match decode c with
      | .ok i => eeCommand tm k i
      | .error _ => some k
    else some k
  | .gotWord _ _ => some k
  | .waited n => some { k with stages := k.stages.map fun e => (e.1, e.2.addWait n) }
  | .ended ok => some { pending := none, stages := stagesAfterWrite ok k.stages k.pending }
  | .wasReset => some { k with stages := k.stages.map fun e => (e.1, e.2.addrChanged) }

/-- No duty is left: no EEPROM write is being carried out, every erase was followed by its program write (R124), and
every last wait is complete (R130). -/
def EeCheck.finished (tm : Timing) (k : EeCheck) : Bool :=
  k.pending.isNone && k.stages.all fun e =>
    match e.2 with
    | .programmed w => decide (tm.eeWrite ≤ w)
    | .erased _ | .lapsed => false

/-- The host's log keeps R124 from that point of the check on: for every WRITE_WORD to an EEPROM register an erase that
succeeded, its wait, the program write and its wait, complete at the end. Three points are the model's choice: only time
the host waited explicitly is counted, from the command's completion on; a write to a register just erased is its program
write, also if it writes 0x0000 (both log entry 23); and an erase counts for no program write sent after a SET_ADDR or
a reset, of which the spec does not speak (log entry 26). Each makes the check stricter, never weaker. -/
def eepromDutyFrom (tm : Timing) (k : EeCheck) (log : List HostEvent) : Bool :=
  match log.foldlM (eeEvent tm) k with
  | some k' => k'.finished tm
  | none => false

/-- The host has kept the EEPROM duties of R124 in what it did so far. -/
def State.eepromDuty (s : State) : Bool := eepromDutyFrom s.timing { pending := none, stages := [] } s.hostLog

end Sys2Proof.Machine
end

