-- ==== Sys2Proof/Machine/Lines.lean ====
section
/-! DEFINITION. Readings of the event trace that the spec gives: line levels and edges (10_state.md R41,
42_sleep_wake.md R97), total delay (R96), and the wire frames (30_encoding.md R74 to R76). The block itself reads no line
level. -/

namespace Sys2Proof.Machine

/-! ### Levels and edges -/

/-- The level of a line, true for high (R41): low in mode OUTPUT_LOW; high in mode INPUT unless another device drives it
low; in mode BUS whatever the bus master and the devices make it. -/
def LineMode.level (m : LineMode) (othersDriveLow busLevel : Bool) : Bool :=
  match m with
  | .outputLow => false
  | .input => !othersDriveLow
  | .bus => busLevel

/-- What an observer of the two lines sees: an edge, or a time for which nothing changes, in ms. -/
inductive LineStep where
  | rise (line : Line)
  | fall (line : Line)
  | hold (ms : Nat)
  deriving DecidableEq, Repr

/-- The edge between two levels of a line. -/
def edge (line : Line) (before after : Bool) : List LineStep :=
  match before, after with
  | false, true => [.rise line]
  | true, false => [.fall line]
  | _, _ => []

/-- The edges and holds of a list of events, the lines being at the given levels first and no other agent driving them
(R97). Bus-master events make no entry: while the lines are in GPIO modes the bus master does not hold them. -/
def lineSteps : Bool → Bool → List Event → List LineStep
  | _, _, [] => []
  | scl, sda, .gpio .scl m :: es =>
    edge .scl scl (m.toLineMode.level false scl) ++ lineSteps (m.toLineMode.level false scl) sda es
  | scl, sda, .gpio .sda m :: es =>
    edge .sda sda (m.toLineMode.level false sda) ++ lineSteps scl (m.toLineMode.level false sda) es
  | scl, sda, .delay ms :: es => .hold ms :: lineSteps scl sda es
  | scl, sda, .bmBegin _ :: es => lineSteps scl sda es
  | scl, sda, .bmWrite _ :: es => lineSteps scl sda es
  | scl, sda, .bmEnd _ _ :: es => lineSteps scl sda es
  | scl, sda, .bmRequest _ _ _ :: es => lineSteps scl sda es
  | scl, sda, .bmRead _ :: es => lineSteps scl sda es

/-- The sum of the Delay arguments: a lower bound of the time, in ms (R96). -/
def delayTotal : List Event → Nat
  | [] => 0
  | .delay ms :: es => ms + delayTotal es
  | _ :: es => delayTotal es

/-! ### Wire frames -/

/-- The letters of a frame (00_scope.md glossary): S, Sr, P, a byte, A, NA. -/
inductive WireSym where
  | start | repeatedStart | stop
  | byte (b : Byte)
  | ack | nack
  deriving DecidableEq, Repr

/-- Where the bus master stands between two events. -/
inductive WirePhase where
  | free                    -- no transaction
  | writing                 -- after BmBegin
  | held                    -- after a write phase that ended without a stop
  | reading (left : Nat)    -- in a read phase with so many bytes left
  deriving DecidableEq, Repr

/-- Put symbols before the rest of a frame. -/
def onWire (syms : List WireSym) (rest : Option (List WireSym)) : Option (List WireSym) := rest.map (syms ++ ·)

/-- What the bus master puts on the wire for a list of port events when every answer is an ACK (R74, R76), beginning
where `p` says. None where an end has a non-zero status or a count is not the one asked for, and for an order of events
that is no transaction: the wire is then not in the source (log entry 19). Gpio and Delay events are not bus-master
events. -/
def framesFrom : WirePhase → List Event → Option (List WireSym)
  | .free, [] => some []
  | .free, .bmBegin a :: es => onWire [.start, .byte (addrByteW a), .ack] (framesFrom .writing es)
  | .held, .bmBegin a :: es => onWire [.repeatedStart, .byte (addrByteW a), .ack] (framesFrom .writing es)
  | .writing, .bmWrite b :: es => onWire [.byte b, .ack] (framesFrom .writing es)
  | .writing, .bmEnd true s :: es => if s = 0#8 then onWire [.stop] (framesFrom .free es) else none
  | .writing, .bmEnd false s :: es => if s = 0#8 then framesFrom .held es else none
  | .free, .bmRequest a n k :: es =>
    if k = n then onWire [.start, .byte (addrByteR a), .ack] (framesFrom (.reading n.toNat) es) else none
  | .held, .bmRequest a n k :: es =>
    if k = n then onWire [.repeatedStart, .byte (addrByteR a), .ack] (framesFrom (.reading n.toNat) es) else none
  | .reading 1, .bmRead b :: es => onWire [.byte b, .nack, .stop] (framesFrom .free es)
  | .reading (n + 2), .bmRead b :: es => onWire [.byte b, .ack] (framesFrom (.reading (n + 1)) es)
  | p, .gpio _ _ :: es => framesFrom p es
  | p, .delay _ :: es => framesFrom p es
  | _, _ => none

/-- The frames of a list of events that begins with no transaction open. -/
def frames (es : List Event) : Option (List WireSym) := framesFrom .free es

end Sys2Proof.Machine
end

