-- ==== Sys2Proof/Safety.lean ====
section
/-! DEFINITION. What counts as a safe run: the invariant of the block, the good end of a run (70_reset_and_hazards.md
R131), and the conditions the statements share. The host's EEPROM duties (R124) are in Machine/EepromDuty.lean. -/

namespace Sys2Proof.Machine

/-! ### Conditions the statements share -/

/-- The host's next line waits for BUSY = 0 (or there is none), so a command started now runs to its end. -/
def State.hostWaits (s : State) : Bool :=
  match s.nextLine with
  | some l => l.during.isNone
  | none => true

/-- The commands that may not be written while PARKED = 1 (60_exceptions.md R99). -/
def usesBus : Instr → Bool
  | .probe | .readWord _ | .writeWord _ _ | .sleep => true
  | .crcStep _ _ | .setAddr _ | .wake => false

/-- What belongs to the host and to the configuration is the same in both states. -/
def hostSideSame (s t : State) : Prop :=
  t.timing = s.timing ∧ t.program = s.program ∧ t.hpc = s.hpc ∧ t.hostLog = s.hostLog ∧
  t.freeReadCount = s.freeReadCount

/-- The same values in every register the host can read (10_state.md R24). -/
def sameRegisters (s t : State) : Prop :=
  t.busy = s.busy ∧ t.ok = s.ok ∧ t.parked = s.parked ∧ t.err = s.err ∧ t.bmStatus = s.bmStatus ∧
  t.rdata = s.rdata ∧ t.addr = s.addr ∧ t.crc = s.crc ∧ t.pecRx = s.pecRx ∧
  t.sclMode = s.sclMode ∧ t.sdaMode = s.sdaMode

/-- Two runs agree if their traces agree and their register results agree (20_memory.md R60); FAULTS is the third part
of what a run shows (70_reset_and_hazards.md R131). -/
def runsAgree (s t : State) : Prop := sameRegisters s t ∧ t.trace = s.trace ∧ t.faults = s.faults

/-- The answers of the bus environment that a trace records, oldest first (20_memory.md R59, R60). -/
def answersOf : List Event → List Byte
  | [] => []
  | .bmEnd _ a :: es => a :: answersOf es
  | .bmRequest _ _ a :: es => a :: answersOf es
  | .bmRead a :: es => a :: answersOf es
  | _ :: es => answersOf es

/-- The event is addressed to no device but `a` (20_memory.md R47). -/
def addressedTo (a : Addr7) : Event → Prop
  | .bmBegin b => b = a
  | .bmRequest b _ _ => b = a
  | _ => True

/-- q · P(x) over GF(2), with P(x) = x⁸ + x² + x + 1 = 0x107 (40_crc.md R80); bit i is the coefficient of xⁱ. -/
def timesP (q : Byte) : Word16 :=
  (List.range 8).foldl (fun acc i => if q.getLsbD i then acc ^^^ (0x107#16 <<< i) else acc) 0#16

/-! ### The invariant -/

/-- The line modes of a block that runs no SLEEP and no WAKE: parked, or both lines with the bus master (R29, R40). -/
def linesAtRest (s : State) : Bool :=
  if s.parked then s.sclMode == .outputLow && s.sdaMode == .input else s.sclMode == .bus && s.sdaMode == .bus

/-- Both lines in the given modes. -/
def linesAre (s : State) (scl sda : LineMode) : Bool := s.sclMode == scl && s.sdaMode == sda

/-- The line modes before each STEP of SLEEP (42_sleep_wake.md R94). -/
def linesInSleep (n : Nat) (s : State) : Bool :=
  !s.parked && (if n = 6 then linesAre s .outputLow .bus else linesAre s .bus .bus)

/-- The line modes before each STEP of WAKE (42_sleep_wake.md R95). -/
def linesInWake (n : Nat) (s : State) : Bool :=
  if n ≤ 1 then linesAtRest s
  else if n = 2 then linesAre s .input (if s.parked then .input else .bus)
  else if n ≤ 4 then linesAre s .input .outputLow
  else if n ≤ 6 then linesAre s .input .input
  else if n ≤ 8 then linesAre s .outputLow .input
  else linesAre s .input .input

/-- The line modes and PARKED in every phase. -/
def linesAgree (s : State) : Bool :=
  match s.phase with
  | .idle => linesAtRest s
  | .run .sleep n => linesInSleep n.toNat s
  | .run .wake n => linesInWake n.toNat s
  | .run (.crcStep _ _) _ | .run (.setAddr _) _ => linesAtRest s
  | .run .probe _ | .run (.readWord _) _ | .run (.writeWord _ _) _ => !s.parked && linesAtRest s

/-- STEP is an index of the running command's list (10_state.md R39). -/
def stepInRange (s : State) : Bool :=
  match s.phase with
  | .idle => true
  | .run i n => decide (n.toNat < (stepsOf i).length)

/-- PHASE is IDLE exactly when BUSY = 0 (10_state.md R39), in a state with no host-protocol fault (log entry 4). -/
def idleIffNotBusy (s : State) : Bool := !s.faults.isEmpty || s.phase.isIdle == !s.busy

/-- The result bits: while BUSY = 1 OK is 0 and ERR is NONE (R27, R28, R31), and OK = 1 only with ERR = NONE. -/
def resultBits (s : State) : Bool :=
  (!s.busy || (!s.ok && s.err == .none)) && (!s.ok || s.err == .none)

/-- The invariant: ADDR is never 0 (R35), and the four conditions above. -/
def State.inv (s : State) : Bool :=
  s.addr != 0#7 && idleIffNotBusy s && stepInRange s && resultBits s && linesAgree s

/-! ### The end of a run -/

/-- The good end of a run (R131): the last command has completed, the host's program is through, and FAULTS is empty. It
says nothing of the sensor, of the bus, or of time. -/
def State.goodEnd (s : State) : Bool :=
  s.faults.isEmpty && !s.busy && s.phase.isIdle && decide (s.program.length ≤ s.hpc)

end Sys2Proof.Machine
end

