-- ==== Sys2Proof/Certificates/Slice0/Obligations.lean ====
section
/-! DEFINITION. The statements for the provers. Each docstring names the rules of spec/ it is about. -/

open Sys2Proof Sys2Proof.Machine

/-! ### The command word -/

/-- 30_encoding.md section 2: decoding an encoded well-formed command gives it back, at every operand value. -/
def Obligations.DecodeOfEncode : Prop := ∀ i : Instr, i.wf = true → decode (encode i) = .ok i

/-- 30_encoding.md section 2: every word that is a command is the encoding of that command. -/
def Obligations.EncodeOfDecode : Prop := ∀ (c : Word32) (i : Instr), decode c = .ok i → encode i = c

/-- R70: the command map, that at most one row matches, that the decoder follows the row, and the operand columns. -/
def Obligations.CommandMapSelectsCommand : Prop :=
  commandMap =
    [⟨"CRC_STEP", 0x10000000#32, 0xFFFF0000#32⟩, ⟨"SET_ADDR", 0x20000000#32, 0xFFFFFF00#32⟩,
     ⟨"PROBE", 0x30000000#32, 0xFFFFFFFF#32⟩, ⟨"READ_WORD", 0x40000000#32, 0xFF00FFFF#32⟩,
     ⟨"WRITE_WORD", 0x50000000#32, 0xFF000000#32⟩, ⟨"SLEEP", 0x60000000#32, 0xFFFFFFFF#32⟩,
     ⟨"WAKE", 0x70000000#32, 0xFFFFFFFF#32⟩] ∧
  ∀ c : Word32,
    (∀ r ∈ commandMap, ∀ r' ∈ commandMap,
      c &&& r.mask = r.value → c &&& r'.mask = r'.value → r = r') ∧
    (∀ r ∈ commandMap, c &&& r.mask = r.value → ∃ i, decode c = .ok i ∧ i.row = r) ∧
    (∀ i, decode c = .ok i →
      c &&& i.row.mask = i.row.value ∧
      match i with
      | .crcStep seed data => seed = c.extractLsb' 8 8 ∧ data = c.extractLsb' 0 8
      | .setAddr a8 => a8 = c.extractLsb' 0 8
      | .readWord reg => reg = c.extractLsb' 16 8
      | .writeWord reg w => reg = c.extractLsb' 16 8 ∧ w = c.extractLsb' 0 16
      | .probe | .sleep | .wake => True)

/-- R71 and R102: exactly the words listed match no row, and such a word written to CMD while BUSY = 0 completes with
ILLEGAL_CMD and changes nothing else. BUSY is 0 before and after. -/
def Obligations.IllegalWordCompletes : Prop :=
  ∀ c : Word32,
    ((c.extractLsb' 28 4 = 0x0#4 ∨ 8 ≤ (c.extractLsb' 28 4).toNat ∨ c.extractLsb' 24 4 ≠ 0#4 ∨
      (c.extractLsb' 28 4 = 0x1#4 ∧ c.extractLsb' 16 8 ≠ 0#8) ∨
      (c.extractLsb' 28 4 = 0x2#4 ∧ c.extractLsb' 8 16 ≠ 0#16) ∨
      ((c.extractLsb' 28 4 = 0x3#4 ∨ c.extractLsb' 28 4 = 0x6#4 ∨ c.extractLsb' 28 4 = 0x7#4) ∧
        c.extractLsb' 0 24 ≠ 0#24) ∨
      (c.extractLsb' 28 4 = 0x4#4 ∧ c.extractLsb' 0 16 ≠ 0#16))
      ↔ ∀ r ∈ commandMap, c &&& r.mask ≠ r.value) ∧
    ((∀ r ∈ commandMap, c &&& r.mask ≠ r.value) → ∀ s : State, s.busy = false →
      writeCmd c s = .next { s with ok := false, err := .illegalCmd })

/-- The encodings the command rules give as examples (R85, R89 to R95) decode to what they stand for. -/
def Obligations.ExampleWordsDecode : Prop :=
  decode 0x100005FF#32 = .ok (.crcStep 0x05#8 0xFF#8) ∧
  decode 0x2000005A#32 = .ok (.setAddr 0x5A#8) ∧
  decode 0x30000000#32 = .ok .probe ∧
  decode 0x40070000#32 = .ok (.readWord 0x07#8) ∧
  decode 0x5024F332#32 = .ok (.writeWord 0x24#8 0xF332#16) ∧
  decode 0x60000000#32 = .ok .sleep ∧
  decode 0x70000000#32 = .ok .wake

/-! ### The PEC generator -/

/-- R80: crc8_step(c, d) is the remainder of (c ^ d)·x⁸ modulo P(x), with its three consequences. -/
def Obligations.CrcStepIsRemainder : Prop :=
  (∀ c d : Byte, ∃ q : Byte,
    (c ^^^ d).zeroExtend 16 <<< 8 = timesP q ^^^ (crc8Step c d).zeroExtend 16) ∧
  (∀ c d : Byte, crc8Step c d = crc8Step 0#8 (c ^^^ d)) ∧
  (∀ c : Byte, Function.Bijective (crc8Step c)) ∧
  (∀ c d : Byte, crc8Step c d = 0#8 ↔ c = d)

/-- R82: residue, linearity, single-byte errors, check value. -/
def Obligations.PecLaws : Prop :=
  (∀ l : List Byte, pec (l ++ [pec l]) = 0x00#8) ∧
  (∀ l1 l2 : List Byte, l1.length = l2.length →
    pec (List.zipWith (· ^^^ ·) l1 l2) = pec l1 ^^^ pec l2) ∧
  (∀ (l r : List Byte) (a b : Byte), a ≠ b → pec (l ++ a :: r) ≠ pec (l ++ b :: r)) ∧
  pec [0x31#8, 0x32#8, 0x33#8, 0x34#8, 0x35#8, 0x36#8, 0x37#8, 0x38#8, 0x39#8] = 0xF4#8

/-- 40_crc.md section 3: CRC_STEP completes, whatever PARKED is, and writes PEC.CRC, OK and ERR only. -/
def Obligations.CrcStepCompletes : Prop :=
  ∀ (seed data : Byte) (s : State), s.busy = false → s.hostWaits = true →
    exec (.crcStep seed data) s =
      .next { s with busy := false, phase := .idle, ok := true, err := .none, crc := crc8Step seed data }

/-! ### The codec -/

/-- 41_smbus_codec.md section 2: SET_ADDR of 1 to 127 loads ADDR, whatever PARKED is. -/
def Obligations.SetAddrLoadsAddr : Prop :=
  ∀ (a8 : Byte) (s : State), s.busy = false → s.hostWaits = true → 1 ≤ a8.toNat → a8.toNat ≤ 127 →
    exec (.setAddr a8) s =
      .next { s with busy := false, phase := .idle, ok := true, err := .none, addr := a8.extractLsb' 0 7 }

/-- 41_smbus_codec.md section 2: SET_ADDR of 0 or of 0x80 and above is BAD_ARG; ADDR and all else unchanged. -/
def Obligations.SetAddrRejectsBadArg : Prop :=
  ∀ (a8 : Byte) (s : State), s.busy = false → s.hostWaits = true → (a8 = 0x00#8 ∨ 0x80 ≤ a8.toNat) →
    exec (.setAddr a8) s = .next { s with busy := false, phase := .idle, ok := false, err := .badArg }

/-- 41_smbus_codec.md section 3: PROBE completes, with OK on a zero status and NAK on any other. -/
def Obligations.ProbeCompletes : Prop :=
  ∀ s : State, s.busy = false → s.parked = false → s.hostWaits = true →
    exec .probe s =
      .next { s with
        busy := false, phase := .idle
        ok := decide (s.drawAt 0 = 0#8), err := if s.drawAt 0 = 0#8 then .none else .nak
        bmStatus := s.drawAt 0
        trace := s.trace ++ [.bmBegin s.addr, .bmEnd true (s.drawAt 0)]
        draws := s.draws.drop 1, drawCount := s.drawCount + 1 }

/-- 41_smbus_codec.md section 4: a READ_WORD whose end is ACKed, whose count is 3 and whose PEC matches. -/
def Obligations.ReadWordSucceeds : Prop :=
  ∀ (reg : Byte) (s : State), s.busy = false → s.parked = false → s.hostWaits = true →
    s.drawAt 0 = 0#8 → s.drawAt 1 = 3#8 →
    pec [s.addr.zeroExtend 8 <<< 1, reg, s.addr.zeroExtend 8 <<< 1 ||| 1#8, s.drawAt 2, s.drawAt 3] = s.drawAt 4 →
    exec (.readWord reg) s =
      .next { s with
        busy := false, phase := .idle, ok := true, err := .none, bmStatus := 0#8
        lsb := s.drawAt 2, msb := s.drawAt 3, pecRx := s.drawAt 4, crc := s.drawAt 4
        rdata := s.drawAt 3 ++ s.drawAt 2
        trace := s.trace ++ [.bmBegin s.addr, .bmWrite reg, .bmEnd false 0#8, .bmRequest s.addr 3#8 3#8,
          .bmRead (s.drawAt 2), .bmRead (s.drawAt 3), .bmRead (s.drawAt 4)]
        draws := s.draws.drop 5, drawCount := s.drawCount + 5 }

/-- 41_smbus_codec.md section 4: NAK at STEP 2 on a non-zero status; no byte is requested, PEC and RDATA are kept. -/
def Obligations.ReadWordNak : Prop :=
  ∀ (reg : Byte) (s : State), s.busy = false → s.parked = false → s.hostWaits = true → s.drawAt 0 ≠ 0#8 →
    exec (.readWord reg) s =
      .next { s with
        busy := false, phase := .idle, ok := false, err := .nak, bmStatus := s.drawAt 0
        trace := s.trace ++ [.bmBegin s.addr, .bmWrite reg, .bmEnd false (s.drawAt 0)]
        draws := s.draws.drop 1, drawCount := s.drawCount + 1 }

/-- 41_smbus_codec.md section 4: SHORT_READ at STEP 3 on any count but 3; no BmRead, PEC and RDATA are kept. -/
def Obligations.ReadWordShort : Prop :=
  ∀ (reg : Byte) (s : State), s.busy = false → s.parked = false → s.hostWaits = true →
    s.drawAt 0 = 0#8 → s.drawAt 1 ≠ 3#8 →
    exec (.readWord reg) s =
      .next { s with
        busy := false, phase := .idle, ok := false, err := .shortRead, bmStatus := 0#8
        trace := s.trace ++ [.bmBegin s.addr, .bmWrite reg, .bmEnd false 0#8, .bmRequest s.addr 3#8 (s.drawAt 1)]
        draws := s.draws.drop 2, drawCount := s.drawCount + 2 }

/-- 41_smbus_codec.md section 4: PEC_MISMATCH at STEP 7; PEC holds both values and RDATA is kept. -/
def Obligations.ReadWordPecMismatch : Prop :=
  ∀ (reg : Byte) (s : State), s.busy = false → s.parked = false → s.hostWaits = true →
    s.drawAt 0 = 0#8 → s.drawAt 1 = 3#8 →
    pec [s.addr.zeroExtend 8 <<< 1, reg, s.addr.zeroExtend 8 <<< 1 ||| 1#8, s.drawAt 2, s.drawAt 3] ≠ s.drawAt 4 →
    exec (.readWord reg) s =
      .next { s with
        busy := false, phase := .idle, ok := false, err := .pecMismatch, bmStatus := 0#8
        lsb := s.drawAt 2, msb := s.drawAt 3, pecRx := s.drawAt 4
        crc := pec [s.addr.zeroExtend 8 <<< 1, reg, s.addr.zeroExtend 8 <<< 1 ||| 1#8, s.drawAt 2, s.drawAt 3]
        trace := s.trace ++ [.bmBegin s.addr, .bmWrite reg, .bmEnd false 0#8, .bmRequest s.addr 3#8 3#8,
          .bmRead (s.drawAt 2), .bmRead (s.drawAt 3), .bmRead (s.drawAt 4)]
        draws := s.draws.drop 5, drawCount := s.drawCount + 5 }

/-- 41_smbus_codec.md section 5: WRITE_WORD completes, PEC last on the wire and in PEC.CRC whatever the status. -/
def Obligations.WriteWordCompletes : Prop :=
  ∀ (reg : Byte) (w : Word16) (s : State), s.busy = false → s.parked = false → s.hostWaits = true →
    exec (.writeWord reg w) s =
      .next { s with
        busy := false, phase := .idle
        ok := decide (s.drawAt 0 = 0#8), err := if s.drawAt 0 = 0#8 then .none else .nak
        bmStatus := s.drawAt 0
        crc := pec [s.addr.zeroExtend 8 <<< 1, reg, w.extractLsb' 0 8, w.extractLsb' 8 8]
        trace := s.trace ++ [.bmBegin s.addr, .bmWrite reg, .bmWrite (w.extractLsb' 0 8), .bmWrite (w.extractLsb' 8 8),
          .bmWrite (pec [s.addr.zeroExtend 8 <<< 1, reg, w.extractLsb' 0 8, w.extractLsb' 8 8]),
          .bmEnd true (s.drawAt 0)]
        draws := s.draws.drop 1, drawCount := s.drawCount + 1 }

/-! ### The sleep/wake sequencer -/

/-- 42_sleep_wake.md section 2: SLEEP completes; the lines are parked whatever the status, and then NAK is reported. -/
def Obligations.SleepParksAndCompletes : Prop :=
  ∀ s : State, s.busy = false → s.parked = false → s.hostWaits = true →
    exec .sleep s =
      .next { s with
        busy := false, phase := .idle
        ok := decide (s.drawAt 0 = 0#8), err := if s.drawAt 0 = 0#8 then .none else .nak
        bmStatus := s.drawAt 0, parked := true, sclMode := .outputLow, sdaMode := .input
        crc := pec [s.addr.zeroExtend 8 <<< 1, 0xFF#8]
        trace := s.trace ++ [.bmBegin s.addr, .bmWrite 0xFF#8, .bmWrite (pec [s.addr.zeroExtend 8 <<< 1, 0xFF#8]),
          .bmEnd true (s.drawAt 0), .gpio .scl .outputLow, .gpio .sda .input]
        draws := s.draws.drop 1, drawCount := s.drawCount + 1 }

/-- 42_sleep_wake.md section 3: WAKE completes with OK = 1 whatever PARKED and the status of STEP 0 are. -/
def Obligations.WakeCompletes : Prop :=
  ∀ s : State, s.busy = false → s.hostWaits = true →
    exec .wake s =
      .next { s with
        busy := false, phase := .idle, ok := true, err := .none
        parked := false, sclMode := .bus, sdaMode := .bus
        trace := s.trace ++ [.bmEnd true (s.drawAt 0), .gpio .scl .input, .gpio .sda .outputLow,
          .delay s.timing.wakeSdaLow, .gpio .sda .input, .delay s.timing.startup, .gpio .scl .outputLow,
          .delay s.timing.sclLow, .gpio .scl .input, .bmBegin s.addr]
        draws := s.draws.drop 1, drawCount := s.drawCount + 1 }

/-- R97: the edges of a WAKE from PARKED = 1 with no other agent on the lines, each hold at least its floor, and the bus
master has the lines afterwards. -/
def Obligations.WakeEdgeSequence : Prop :=
  ∀ s : State, s.busy = false → s.hostWaits = true → s.parked = true →
    ∃ t es, exec .wake s = .next t ∧ t.trace = s.trace ++ es ∧
      lineSteps false true es =
        [.rise .scl, .fall .sda, .hold s.timing.wakeSdaLow, .rise .sda, .hold s.timing.startup,
         .fall .scl, .hold s.timing.sclLow, .rise .scl] ∧
      t.sclMode = .bus ∧ t.sdaMode = .bus

/-- 42_sleep_wake.md section 4: only WAKE waits; its three delays add up to the parameters, at least 284.44 ms for any
well-formed timing and 310 ms for the default. -/
def Obligations.OnlyWakeDelays : Prop :=
  (∀ s : State, s.busy = false → s.hostWaits = true → s.timing.wf = true →
    ∃ t, exec .wake s = .next t ∧
      delayTotal t.trace =
        delayTotal s.trace + s.timing.wakeSdaLow + s.timing.startup + s.timing.sclLow ∧
      100 * delayTotal s.trace + 28444 ≤ 100 * delayTotal t.trace ∧
      (s.timing = Timing.default → delayTotal t.trace = delayTotal s.trace + 310)) ∧
  (∀ (i : Instr) (s t : State), i ≠ .wake → exec i s = .next t → delayTotal t.trace = delayTotal s.trace)

/-- R74 and R75: the wire frames of the four bus commands when every answer is an ACK, and of the probe. -/
def Obligations.BusCommandsMakeFrames : Prop :=
  ∀ s : State, s.busy = false → s.parked = false → s.hostWaits = true → s.drawAt 0 = 0#8 →
    (∀ reg : Byte, s.drawAt 1 = 3#8 → ∃ t es, exec (.readWord reg) s = .next t ∧ t.trace = s.trace ++ es ∧
      frames es = some
        [.start, .byte (s.addr.zeroExtend 8 <<< 1), .ack, .byte reg, .ack,
         .repeatedStart, .byte (s.addr.zeroExtend 8 <<< 1 ||| 1#8), .ack,
         .byte (s.drawAt 2), .ack, .byte (s.drawAt 3), .ack, .byte (s.drawAt 4), .nack, .stop]) ∧
    (∀ (reg : Byte) (w : Word16), ∃ t es, exec (.writeWord reg w) s = .next t ∧ t.trace = s.trace ++ es ∧
      frames es = some
        [.start, .byte (s.addr.zeroExtend 8 <<< 1), .ack, .byte reg, .ack, .byte (w.extractLsb' 0 8), .ack,
         .byte (w.extractLsb' 8 8), .ack,
         .byte (pec [s.addr.zeroExtend 8 <<< 1, reg, w.extractLsb' 0 8, w.extractLsb' 8 8]), .ack, .stop]) ∧
    (∃ t es, exec .sleep s = .next t ∧ t.trace = s.trace ++ es ∧
      frames es = some
        [.start, .byte (s.addr.zeroExtend 8 <<< 1), .ack, .byte 0xFF#8, .ack,
         .byte (pec [s.addr.zeroExtend 8 <<< 1, 0xFF#8]), .ack, .stop]) ∧
    (∃ t es, exec .probe s = .next t ∧ t.trace = s.trace ++ es ∧
      frames es = some [.start, .byte (s.addr.zeroExtend 8 <<< 1), .ack, .stop])

/-! ### Host-protocol faults, refusals, reset -/

/-- 60_exceptions.md section 4: PROBE, READ_WORD, WRITE_WORD and SLEEP while PARKED = 1 record F_BUS_WHILE_PARKED and do
nothing of the command. That BUSY = 1, OK = 0 and ERR = NONE stay as acceptance set them is the model's reading
(log entry 4). -/
def Obligations.BusCommandWhileParkedIsRecorded : Prop :=
  ∀ (i : Instr) (s : State),
    (i = .probe ∨ (∃ reg, i = .readWord reg) ∨ (∃ reg w, i = .writeWord reg w) ∨ i = .sleep) →
    s.busy = false → s.parked = true →
    exec i s =
      .next { s with busy := true, ok := false, err := .none, faults := s.faults.insert .busWhileParked }

/-- 60_exceptions.md section 1: the order of acceptance of a word written to CMD: busy fault; else BUSY, OK, ERR are set and then illegal word,
parked fault, or the command's own steps from STEP 0, which end with BUSY = 0 and PHASE = IDLE when the host waits. What
stays in BUSY, OK and ERR after the parked fault is the model's reading (log entry 4). -/
def Obligations.AcceptanceOrder : Prop :=
  ∀ (c : Word32) (s : State),
    (s.busy = true → writeCmd c s = .next { s with faults := s.faults.insert .cmdWhileBusy }) ∧
    (∀ e, s.busy = false → decode c = .error e →
      writeCmd c s = .next { s with busy := false, ok := false, err := .illegalCmd }) ∧
    (∀ i, s.busy = false → decode c = .ok i →
      (if (i = .probe ∨ (∃ reg, i = .readWord reg) ∨ (∃ reg w, i = .writeWord reg w) ∨ i = .sleep) ∧
          s.parked = true then
        writeCmd c s =
          .next { s with busy := true, ok := false, err := .none, faults := s.faults.insert .busWhileParked }
      else
        ∃ t, writeCmd c s = .next t ∧
          t = runSteps (stepsOf i) 16 { s with busy := true, ok := false, err := .none, phase := .run i 0#4 } ∧
          (s.hostWaits = true → t.busy = false ∧ t.phase = .idle)))

/-- 93_implementation_defined.md S3: the state after a host-protocol fault has no successor. -/
def Obligations.FaultedStateIsStuck : Prop :=
  ∀ s : State, s.timing.wf = true → s.faults ≠ [] → step s = .fault .stuckAfterHostFault

/-- 70_reset_and_hazards.md section 3: while PARKED = 1 exactly WAKE, CRC_STEP and SET_ADDR record no fault. -/
def Obligations.LegalCommandsWhileParked : Prop :=
  ∀ (i : Instr) (s t : State), s.busy = false → s.parked = true → s.faults = [] → exec i s = .next t →
    (t.faults = [] ↔ (i = .wake ∨ (∃ seed data, i = .crcStep seed data) ∨ ∃ a8, i = .setAddr a8))

/-- 60_exceptions.md section 4: the step that records a fault performs no port event, takes no answer, and changes none
of ADDR, RDATA, PEC, LINES, BM_STATUS, PARKED, PHASE. -/
def Obligations.FaultStepPerformsNothing : Prop :=
  ∀ s t : State, step s = .next t → t.faults ≠ [] →
    t.trace = s.trace ∧ t.draws = s.draws ∧ t.drawCount = s.drawCount ∧
    t.addr = s.addr ∧ t.rdata = s.rdata ∧ t.crc = s.crc ∧ t.pecRx = s.pecRx ∧
    t.sclMode = s.sclMode ∧ t.sdaMode = s.sdaMode ∧ t.bmStatus = s.bmStatus ∧ t.parked = s.parked ∧
    t.phase = s.phase

/-- 00_scope.md section 3: a configuration that breaks a floor of R12 or R13 is refused. -/
def Obligations.IllFormedTimingIsRefused : Prop :=
  ∀ s : State,
    (s.timing.wakeSdaLow < 33 ∨ s.timing.startup < 250 ∨ 100 * s.timing.sclLow < 144 ∨
      s.timing.eeErase < 5 ∨ s.timing.eeWrite < 5) →
    step s = .refused .illFormedTiming

/-- 70_reset_and_hazards.md section 1: a reset while BUSY = 1 is refused. -/
def Obligations.ResetWhileBusyIsRefused : Prop :=
  ∀ s : State, s.busy = true → hostAct .reset s = .refused .resetWhileBusy

/-- R117: the reset values, the block's reset as an act of the host, no port event, and that an idle block changes nothing
while the host does nothing. -/
def Obligations.ResetSetsEveryRegister : Prop :=
  (∀ s t : State, (t = State.reset ∨ (s.busy = false ∧ hostAct .reset s = .next t)) →
    t.busy = false ∧ t.ok = false ∧ t.parked = false ∧ t.err = .none ∧ t.bmStatus = 0x00#8 ∧
    t.rdata = 0x0000#16 ∧ t.addr = 0x5A#7 ∧ t.crc = 0x00#8 ∧ t.pecRx = 0x00#8 ∧
    t.phase = .idle ∧ t.sclMode = .bus ∧ t.sdaMode = .bus) ∧
  (∀ s : State, s.busy = false → ∃ t, hostAct .reset s = .next t ∧ t.trace = s.trace) ∧
  State.reset.faults = [] ∧ State.reset.trace = [] ∧
  (∀ s : State, s.timing.wf = true → s.faults = [] → s.busy = false → s.nextLine = none → step s = .next s)

/-! ### The host port -/

/-- R30 and R33: the reserved bits of STATUS read 0. -/
def Obligations.StatusReservedBitsReadZero : Prop :=
  ∀ s : State, s.statusWord.getLsbD 3 = false ∧ s.statusWord.extractLsb' 16 16 = 0#16

/-- 10_state.md section 3 and 60_exceptions.md section 2: where each field of STATUS stands (R27 to R33), and the code of
each error kind (R100). -/
def Obligations.StatusWordLayout : Prop :=
  (∀ s : State,
    s.statusWord.getLsbD 3 = false ∧ s.statusWord.extractLsb' 16 16 = 0#16 ∧
    s.statusWord.getLsbD 0 = s.busy ∧ s.statusWord.getLsbD 1 = s.ok ∧ s.statusWord.getLsbD 2 = s.parked ∧
    s.statusWord.extractLsb' 4 4 = s.err.code ∧ s.statusWord.extractLsb' 8 8 = s.bmStatus) ∧
  ErrKind.none.code = 0#4 ∧ ErrKind.nak.code = 1#4 ∧ ErrKind.pecMismatch.code = 2#4 ∧
  ErrKind.shortRead.code = 3#4 ∧ ErrKind.badArg.code = 4#4 ∧ ErrKind.illegalCmd.code = 5#4

/-- 10_state.md section 3: reads of CMD and of unused offsets up to 0x3C give 0, writes to them (CMD apart) and to
read-only registers are ignored, and any other width or alignment is F_HOST_ACCESS (R25). That a malformed access is
F_HOST_ACCESS alone also where it is a write to CMD while BUSY = 1 is the model's choice (log entry 20), and so it is for
a malformed access above 0x3C (log entry 6). -/
def Obligations.HostAccessRules : Prop :=
  ∀ s : State,
    hostAct (.read 0x00 4) s = .next { s with hostLog := s.hostLog ++ [.gotWord 0x00 0#32] } ∧
    (∀ off, 0x14 < off → off ≤ 0x3C → off % 4 = 0 →
      hostAct (.read off 4) s = .next { s with hostLog := s.hostLog ++ [.gotWord off 0#32] }) ∧
    (∀ off data, 0x00 < off → off ≤ 0x3C → off % 4 = 0 →
      hostAct (.write off 4 data) s = .next { s with hostLog := s.hostLog ++ [.wrote off data] }) ∧
    (∀ off size data, (size ≠ 4 ∨ off % 4 ≠ 0) →
      hostAct (.read off size) s = .next { s with faults := s.faults.insert .hostAccess } ∧
      hostAct (.write off size data) s = .next { s with faults := s.faults.insert .hostAccess })

/-- 10_state.md sections 3 and 5: what a read of each register returns while BUSY = 0, and the codes of the line modes
(R40). -/
def Obligations.IdleReadsReturnRegisters : Prop :=
  (∀ s : State, s.busy = false →
    hostAct (.read 0x04 4) s = .next { s with hostLog := s.hostLog ++ [.gotWord 0x04 s.statusWord] } ∧
    hostAct (.read 0x08 4) s = .next { s with hostLog := s.hostLog ++ [.gotWord 0x08 (0#16 ++ s.rdata)] } ∧
    hostAct (.read 0x0C 4) s = .next { s with hostLog := s.hostLog ++ [.gotWord 0x0C (0#25 ++ s.addr)] } ∧
    hostAct (.read 0x10 4) s = .next { s with hostLog := s.hostLog ++ [.gotWord 0x10 (0#16 ++ s.pecRx ++ s.crc)] } ∧
    hostAct (.read 0x14 4) s =
      .next { s with hostLog := s.hostLog ++ [.gotWord 0x14 (0#28 ++ s.sdaMode.code ++ s.sclMode.code)] }) ∧
  LineMode.bus.code = 0#2 ∧ LineMode.input.code = 1#2 ∧ LineMode.outputLow.code = 2#2

/-- R38: while BUSY = 1 a read of STATUS gives the current STATUS with BUSY = 1, and a read of RDATA, ADDR, PEC or LINES
gives a free value: the statement holds for every value `Config.freeRead` may have. -/
def Obligations.BusyReadsAreUnspecified : Prop :=
  ∀ s : State, s.busy = true →
    s.statusWord.getLsbD 0 = true ∧
    hostAct (.read 0x04 4) s = .next { s with hostLog := s.hostLog ++ [.gotWord 0x04 s.statusWord] } ∧
    (∀ off, (off = 0x08 ∨ off = 0x0C ∨ off = 0x10 ∨ off = 0x14) →
      hostAct (.read off 4) s =
        .next { s with hostLog := s.hostLog ++ [.gotWord off (Config.freeRead s.freeReadCount)]
                       freeReadCount := s.freeReadCount + 1 })

/-! ### The step -/

/-- 60_exceptions.md section 1: when the block is idle and the host's next line writes a word to CMD that decodes to i,
the step is exec of i. Around it the step only moves the host on by one line, logs the write, and, if the command has
completed, logs that with its OK. -/
def Obligations.StepRunsDecodedCommand : Prop :=
  ∀ (s : State) (c : Word32) (i : Instr) (during : Option Nat),
    s.timing.wf = true → s.faults = [] → s.busy = false →
    s.program[s.hpc]? = some { act := .write 0x00 4 c, during := during } → decode c = .ok i →
    ∃ t, exec i { s with hpc := s.hpc + 1, hostLog := s.hostLog ++ [.wrote 0x00 c] } = .next t ∧
      step s = .next { t with hostLog := if t.busy then t.hostLog else t.hostLog ++ [.ended t.ok] }

/-- 41_smbus_codec.md section 1: a command stops before its end for nothing but a host line that is due (the landing of
host accesses is the model's, log entry 1). -/
def Obligations.CommandRunsToItsEnd : Prop :=
  ∀ (i : Instr) (s t : State), s.busy = false → (usesBus i = true → s.parked = false) → exec i s = .next t →
    (t.busy = false ∧ t.phase = .idle) ∨ (t.busy = true ∧ t.hostDue = true)

/-- 20_memory.md section 5: a command that was interrupted by a host line and goes on ends as if it had not been
interrupted (log entry 1). -/
def Obligations.InterruptedCommandEndsTheSame : Prop :=
  ∀ s : State, resume { resume s with program := [] } = resume { s with program := [] }

/-- 10_state.md section 3 and 20_memory.md section 5: a host read made while a command runs does not disturb the
command: what the read changes (the log, the count of free reads) and the running command do not meet. -/
def Obligations.HostReadDoesNotDisturbCommand : Prop :=
  ∀ (s : State) (off : Nat),
    resume (afterRead off s) =
      { resume s with hostLog := (afterRead off s).hostLog, freeReadCount := (afterRead off s).freeReadCount }

/-- 20_memory.md section 4: the result of a command depends on the registers, the timing and the environment's answers
only: two runs from states that agree on these agree, whatever the internal temporaries, the host's program and the
host's log are. -/
def Obligations.EqualDrawsGiveEqualRuns : Prop :=
  ∀ (i : Instr) (s s' : State), runsAgree s s' → s'.timing = s.timing → (∀ k, s'.drawAt k = s.drawAt k) →
    s.hostWaits = true → s'.hostWaits = true →
    ∃ t t', exec i s = .next t ∧ exec i s' = .next t' ∧ runsAgree t t'

/-- 70_reset_and_hazards.md section 4: at the good end of a run nothing is left to happen. -/
def Obligations.GoodEndIsFinal : Prop :=
  ∀ s : State, s.timing.wf = true → s.goodEnd = true → step s = .next s

/-! ### The host's EEPROM duties -/

/-- 70_reset_and_hazards.md section 3: the check of R124 on two writes of one EEPROM register. After an erase that
succeeded, the log is kept iff the first word is 0x0000 and both waits are long enough, whatever the second word is. After
an erase that failed, the second write is an erase again (R128). That only explicit waits count (log entry 23) and that
an erase counts for no program write sent after SET_ADDR (log entry 26) are the model's choices. -/
def Obligations.EepromDutyChecksSequence : Prop :=
  ∀ (s : State) (reg : Byte) (v w : Word16) (a8 : Byte) (m n : Nat) (ok' : Bool),
    (reg = 0x20#8 ∨ reg = 0x21#8 ∨ reg = 0x24#8 ∨ reg = 0x2E#8) →
    (State.eepromDuty { s with hostLog :=
        [.wrote 0x00 (encode (.writeWord reg v)), .ended true, .waited m,
         .wrote 0x00 (encode (.writeWord reg w)), .ended ok', .waited n] } = true ↔
      v = 0x0000#16 ∧ s.timing.eeErase ≤ m ∧ s.timing.eeWrite ≤ n) ∧
    (State.eepromDuty { s with hostLog :=
        [.wrote 0x00 (encode (.writeWord reg v)), .ended false, .waited m,
         .wrote 0x00 (encode (.writeWord reg w)), .ended true, .waited n] } = false) ∧
    (State.eepromDuty { s with hostLog :=
        [.wrote 0x00 (encode (.writeWord reg v)), .ended true, .wrote 0x00 (encode (.setAddr a8)), .ended ok',
         .waited m, .wrote 0x00 (encode (.writeWord reg w)), .ended true, .waited n] } = false)

/-! ### Rules about the whole machine -/

/-- 10_state.md sections 3 to 5: the invariant (ADDR never 0; PHASE idle iff BUSY = 0; STEP in range; result bits; line
modes and PARKED in every phase) is kept by every step. -/
def Obligations.InvariantKeptByStep : Prop :=
  ∀ s t : State, s.inv = true → step s = .next t → t.inv = true

/-- The invariant holds after reset. -/
def Obligations.InvariantAtReset : Prop := State.reset.inv = true

/-- 20_memory.md section 4: the trace only grows: no step drops, reorders or rewrites an event. -/
def Obligations.TraceOnlyGrows : Prop :=
  ∀ s t : State, step s = .next t → s.trace <+: t.trace

/-- 20_memory.md section 4: every answer a step records is the environment's next one, in order, and no answer is
skipped, used twice or invented. -/
def Obligations.AnswersAreTheDraws : Prop :=
  ∀ s t : State, step s = .next t →
    ∃ n, t.drawCount = s.drawCount + n ∧ t.draws = s.draws.drop n ∧
      answersOf t.trace = answersOf s.trace ++ (List.range n).map s.drawAt

/-- 20_memory.md section 1: every transaction a command starts is addressed to ADDR. -/
def Obligations.EventsAreAddressedToAddr : Prop :=
  ∀ (i : Instr) (s t : State), exec i s = .next t →
    ∃ es, t.trace = s.trace ++ es ∧ ∀ e ∈ es, addressedTo s.addr e

/-- 10_state.md section 3: a command changes ADDR only if it is a SET_ADDR that succeeds. -/
def Obligations.OnlySetAddrWritesAddr : Prop :=
  ∀ (i : Instr) (s t : State), exec i s = .next t → t.addr ≠ s.addr →
    ∃ a8, i = .setAddr a8 ∧ 1 ≤ a8.toNat ∧ a8.toNat ≤ 127 ∧ t.addr = a8.extractLsb' 0 7 ∧
      t.ok = true ∧ t.err = .none ∧ t.busy = false

/-- 10_state.md section 3: a command changes RDATA only if it is a READ_WORD that succeeds with a matching PEC. -/
def Obligations.OnlyReadWordWritesRdata : Prop :=
  ∀ (i : Instr) (s t : State), exec i s = .next t → t.rdata ≠ s.rdata →
    ∃ reg, i = .readWord reg ∧ t.ok = true ∧ t.err = .none ∧ t.busy = false ∧ t.crc = t.pecRx ∧
      t.rdata = t.msb ++ t.lsb

/-- 42_sleep_wake.md section 1: no command but SLEEP and WAKE changes LINES or PARKED, or issues a Gpio event. -/
def Obligations.OnlySleepAndWakeMoveLines : Prop :=
  ∀ (i : Instr) (s t : State), i ≠ .sleep → i ≠ .wake → exec i s = .next t →
    t.sclMode = s.sclMode ∧ t.sdaMode = s.sdaMode ∧ t.parked = s.parked ∧
    ∃ es, t.trace = s.trace ++ es ∧ ∀ line mode, Event.gpio line mode ∉ es

/-- 42_sleep_wake.md section 2: while PARKED = 1 no command but WAKE issues any port event. -/
def Obligations.NoEventWhileParkedButWake : Prop :=
  ∀ (i : Instr) (s t : State), s.parked = true → i ≠ .wake → exec i s = .next t → t.trace = s.trace

/-! ### Frames: what each command leaves unchanged whenever exec answers a next state -/

/-- 40_crc.md section 3. -/
def Obligations.CrcStepFrame : Prop :=
  ∀ (seed data : Byte) (s t : State), exec (.crcStep seed data) s = .next t →
    t.parked = s.parked ∧ t.bmStatus = s.bmStatus ∧ t.rdata = s.rdata ∧ t.addr = s.addr ∧ t.pecRx = s.pecRx ∧
    t.sclMode = s.sclMode ∧ t.sdaMode = s.sdaMode ∧ t.lsb = s.lsb ∧ t.msb = s.msb ∧
    t.trace = s.trace ∧ t.draws = s.draws ∧ t.drawCount = s.drawCount ∧ hostSideSame s t

/-- 41_smbus_codec.md section 2. -/
def Obligations.SetAddrFrame : Prop :=
  ∀ (a8 : Byte) (s t : State), exec (.setAddr a8) s = .next t →
    t.parked = s.parked ∧ t.bmStatus = s.bmStatus ∧ t.rdata = s.rdata ∧ t.crc = s.crc ∧ t.pecRx = s.pecRx ∧
    t.sclMode = s.sclMode ∧ t.sdaMode = s.sdaMode ∧ t.lsb = s.lsb ∧ t.msb = s.msb ∧
    t.trace = s.trace ∧ t.draws = s.draws ∧ t.drawCount = s.drawCount ∧ hostSideSame s t

/-- 41_smbus_codec.md section 3. -/
def Obligations.ProbeFrame : Prop :=
  ∀ s t : State, exec .probe s = .next t →
    t.parked = s.parked ∧ t.rdata = s.rdata ∧ t.addr = s.addr ∧ t.crc = s.crc ∧ t.pecRx = s.pecRx ∧
    t.sclMode = s.sclMode ∧ t.sdaMode = s.sdaMode ∧ t.lsb = s.lsb ∧ t.msb = s.msb ∧ hostSideSame s t

/-- 41_smbus_codec.md section 4: RDATA changes on success only, PEC_RX and CRC only as far as their steps ran. -/
def Obligations.ReadWordFrame : Prop :=
  ∀ (reg : Byte) (s t : State), exec (.readWord reg) s = .next t →
    t.parked = s.parked ∧ t.addr = s.addr ∧ t.sclMode = s.sclMode ∧ t.sdaMode = s.sdaMode ∧ hostSideSame s t ∧
    (t.rdata = s.rdata ∨ t.ok = true) ∧
    ((t.err = .nak ∨ t.err = .shortRead) → t.pecRx = s.pecRx ∧ t.crc = s.crc ∧ t.lsb = s.lsb ∧ t.msb = s.msb)

/-- 41_smbus_codec.md section 5. -/
def Obligations.WriteWordFrame : Prop :=
  ∀ (reg : Byte) (w : Word16) (s t : State), exec (.writeWord reg w) s = .next t →
    t.parked = s.parked ∧ t.rdata = s.rdata ∧ t.addr = s.addr ∧ t.pecRx = s.pecRx ∧
    t.sclMode = s.sclMode ∧ t.sdaMode = s.sdaMode ∧ t.lsb = s.lsb ∧ t.msb = s.msb ∧ hostSideSame s t

/-- 42_sleep_wake.md section 2. -/
def Obligations.SleepFrame : Prop :=
  ∀ s t : State, exec .sleep s = .next t →
    t.rdata = s.rdata ∧ t.addr = s.addr ∧ t.pecRx = s.pecRx ∧ t.lsb = s.lsb ∧ t.msb = s.msb ∧ hostSideSame s t

/-- 42_sleep_wake.md section 3. -/
def Obligations.WakeFrame : Prop :=
  ∀ s t : State, exec .wake s = .next t →
    t.bmStatus = s.bmStatus ∧ t.rdata = s.rdata ∧ t.addr = s.addr ∧ t.crc = s.crc ∧ t.pecRx = s.pecRx ∧
    t.lsb = s.lsb ∧ t.msb = s.msb ∧ hostSideSame s t
end

