-- ==== Sys2Proof/Laws/State.lean ====
section
/-! SUPPORT. What each named update of the state leaves in each field: one lemma per field per update, all by rfl,
so that no later proof unfolds a record update. -/

namespace Sys2Proof.Machine

variable (s : State)

/-! ### afterDraw -/

@[simp] theorem State.afterDraw_busy : s.afterDraw.busy = s.busy := rfl
@[simp] theorem State.afterDraw_ok : s.afterDraw.ok = s.ok := rfl
@[simp] theorem State.afterDraw_parked : s.afterDraw.parked = s.parked := rfl
@[simp] theorem State.afterDraw_err : s.afterDraw.err = s.err := rfl
@[simp] theorem State.afterDraw_bmStatus : s.afterDraw.bmStatus = s.bmStatus := rfl
@[simp] theorem State.afterDraw_rdata : s.afterDraw.rdata = s.rdata := rfl
@[simp] theorem State.afterDraw_addr : s.afterDraw.addr = s.addr := rfl
@[simp] theorem State.afterDraw_crc : s.afterDraw.crc = s.crc := rfl
@[simp] theorem State.afterDraw_pecRx : s.afterDraw.pecRx = s.pecRx := rfl
@[simp] theorem State.afterDraw_sclMode : s.afterDraw.sclMode = s.sclMode := rfl
@[simp] theorem State.afterDraw_sdaMode : s.afterDraw.sdaMode = s.sdaMode := rfl
@[simp] theorem State.afterDraw_phase : s.afterDraw.phase = s.phase := rfl
@[simp] theorem State.afterDraw_lsb : s.afterDraw.lsb = s.lsb := rfl
@[simp] theorem State.afterDraw_msb : s.afterDraw.msb = s.msb := rfl
@[simp] theorem State.afterDraw_faults : s.afterDraw.faults = s.faults := rfl
@[simp] theorem State.afterDraw_trace : s.afterDraw.trace = s.trace := rfl
@[simp] theorem State.afterDraw_draws : s.afterDraw.draws = s.draws.tail := rfl
@[simp] theorem State.afterDraw_drawCount : s.afterDraw.drawCount = s.drawCount + 1 := rfl
@[simp] theorem State.afterDraw_freeReadCount : s.afterDraw.freeReadCount = s.freeReadCount := rfl
@[simp] theorem State.afterDraw_timing : s.afterDraw.timing = s.timing := rfl
@[simp] theorem State.afterDraw_program : s.afterDraw.program = s.program := rfl
@[simp] theorem State.afterDraw_hpc : s.afterDraw.hpc = s.hpc := rfl
@[simp] theorem State.afterDraw_hostLog : s.afterDraw.hostLog = s.hostLog := rfl

/-! ### emit -/

@[simp] theorem State.emit_busy (e : Event) : (s.emit e).busy = s.busy := rfl
@[simp] theorem State.emit_ok (e : Event) : (s.emit e).ok = s.ok := rfl
@[simp] theorem State.emit_parked (e : Event) : (s.emit e).parked = s.parked := rfl
@[simp] theorem State.emit_err (e : Event) : (s.emit e).err = s.err := rfl
@[simp] theorem State.emit_bmStatus (e : Event) : (s.emit e).bmStatus = s.bmStatus := rfl
@[simp] theorem State.emit_rdata (e : Event) : (s.emit e).rdata = s.rdata := rfl
@[simp] theorem State.emit_addr (e : Event) : (s.emit e).addr = s.addr := rfl
@[simp] theorem State.emit_crc (e : Event) : (s.emit e).crc = s.crc := rfl
@[simp] theorem State.emit_pecRx (e : Event) : (s.emit e).pecRx = s.pecRx := rfl
@[simp] theorem State.emit_sclMode (e : Event) : (s.emit e).sclMode = s.sclMode := rfl
@[simp] theorem State.emit_sdaMode (e : Event) : (s.emit e).sdaMode = s.sdaMode := rfl
@[simp] theorem State.emit_phase (e : Event) : (s.emit e).phase = s.phase := rfl
@[simp] theorem State.emit_lsb (e : Event) : (s.emit e).lsb = s.lsb := rfl
@[simp] theorem State.emit_msb (e : Event) : (s.emit e).msb = s.msb := rfl
@[simp] theorem State.emit_faults (e : Event) : (s.emit e).faults = s.faults := rfl
@[simp] theorem State.emit_trace (e : Event) : (s.emit e).trace = s.trace ++ [e] := rfl
@[simp] theorem State.emit_draws (e : Event) : (s.emit e).draws = s.draws := rfl
@[simp] theorem State.emit_drawCount (e : Event) : (s.emit e).drawCount = s.drawCount := rfl
@[simp] theorem State.emit_freeReadCount (e : Event) : (s.emit e).freeReadCount = s.freeReadCount := rfl
@[simp] theorem State.emit_timing (e : Event) : (s.emit e).timing = s.timing := rfl
@[simp] theorem State.emit_program (e : Event) : (s.emit e).program = s.program := rfl
@[simp] theorem State.emit_hpc (e : Event) : (s.emit e).hpc = s.hpc := rfl
@[simp] theorem State.emit_hostLog (e : Event) : (s.emit e).hostLog = s.hostLog := rfl

/-! ### setLine -/

@[simp] theorem State.setLine_busy (l : Line) (m : LineMode) : (s.setLine l m).busy = s.busy := rfl
@[simp] theorem State.setLine_ok (l : Line) (m : LineMode) : (s.setLine l m).ok = s.ok := rfl
@[simp] theorem State.setLine_parked (l : Line) (m : LineMode) : (s.setLine l m).parked = s.parked := rfl
@[simp] theorem State.setLine_err (l : Line) (m : LineMode) : (s.setLine l m).err = s.err := rfl
@[simp] theorem State.setLine_bmStatus (l : Line) (m : LineMode) : (s.setLine l m).bmStatus = s.bmStatus := rfl
@[simp] theorem State.setLine_rdata (l : Line) (m : LineMode) : (s.setLine l m).rdata = s.rdata := rfl
@[simp] theorem State.setLine_addr (l : Line) (m : LineMode) : (s.setLine l m).addr = s.addr := rfl
@[simp] theorem State.setLine_crc (l : Line) (m : LineMode) : (s.setLine l m).crc = s.crc := rfl
@[simp] theorem State.setLine_pecRx (l : Line) (m : LineMode) : (s.setLine l m).pecRx = s.pecRx := rfl
@[simp] theorem State.setLine_sclMode (l : Line) (m : LineMode) : (s.setLine l m).sclMode = if l = .scl then m else s.sclMode := rfl
@[simp] theorem State.setLine_sdaMode (l : Line) (m : LineMode) : (s.setLine l m).sdaMode = if l = .sda then m else s.sdaMode := rfl
@[simp] theorem State.setLine_phase (l : Line) (m : LineMode) : (s.setLine l m).phase = s.phase := rfl
@[simp] theorem State.setLine_lsb (l : Line) (m : LineMode) : (s.setLine l m).lsb = s.lsb := rfl
@[simp] theorem State.setLine_msb (l : Line) (m : LineMode) : (s.setLine l m).msb = s.msb := rfl
@[simp] theorem State.setLine_faults (l : Line) (m : LineMode) : (s.setLine l m).faults = s.faults := rfl
@[simp] theorem State.setLine_trace (l : Line) (m : LineMode) : (s.setLine l m).trace = s.trace := rfl
@[simp] theorem State.setLine_draws (l : Line) (m : LineMode) : (s.setLine l m).draws = s.draws := rfl
@[simp] theorem State.setLine_drawCount (l : Line) (m : LineMode) : (s.setLine l m).drawCount = s.drawCount := rfl
@[simp] theorem State.setLine_freeReadCount (l : Line) (m : LineMode) : (s.setLine l m).freeReadCount = s.freeReadCount := rfl
@[simp] theorem State.setLine_timing (l : Line) (m : LineMode) : (s.setLine l m).timing = s.timing := rfl
@[simp] theorem State.setLine_program (l : Line) (m : LineMode) : (s.setLine l m).program = s.program := rfl
@[simp] theorem State.setLine_hpc (l : Line) (m : LineMode) : (s.setLine l m).hpc = s.hpc := rfl
@[simp] theorem State.setLine_hostLog (l : Line) (m : LineMode) : (s.setLine l m).hostLog = s.hostLog := rfl

/-! ### toIdle -/

@[simp] theorem State.toIdle_busy : s.toIdle.busy = false := rfl
@[simp] theorem State.toIdle_ok : s.toIdle.ok = s.ok := rfl
@[simp] theorem State.toIdle_parked : s.toIdle.parked = s.parked := rfl
@[simp] theorem State.toIdle_err : s.toIdle.err = s.err := rfl
@[simp] theorem State.toIdle_bmStatus : s.toIdle.bmStatus = s.bmStatus := rfl
@[simp] theorem State.toIdle_rdata : s.toIdle.rdata = s.rdata := rfl
@[simp] theorem State.toIdle_addr : s.toIdle.addr = s.addr := rfl
@[simp] theorem State.toIdle_crc : s.toIdle.crc = s.crc := rfl
@[simp] theorem State.toIdle_pecRx : s.toIdle.pecRx = s.pecRx := rfl
@[simp] theorem State.toIdle_sclMode : s.toIdle.sclMode = s.sclMode := rfl
@[simp] theorem State.toIdle_sdaMode : s.toIdle.sdaMode = s.sdaMode := rfl
@[simp] theorem State.toIdle_phase : s.toIdle.phase = .idle := rfl
@[simp] theorem State.toIdle_lsb : s.toIdle.lsb = s.lsb := rfl
@[simp] theorem State.toIdle_msb : s.toIdle.msb = s.msb := rfl
@[simp] theorem State.toIdle_faults : s.toIdle.faults = s.faults := rfl
@[simp] theorem State.toIdle_trace : s.toIdle.trace = s.trace := rfl
@[simp] theorem State.toIdle_draws : s.toIdle.draws = s.draws := rfl
@[simp] theorem State.toIdle_drawCount : s.toIdle.drawCount = s.drawCount := rfl
@[simp] theorem State.toIdle_freeReadCount : s.toIdle.freeReadCount = s.freeReadCount := rfl
@[simp] theorem State.toIdle_timing : s.toIdle.timing = s.timing := rfl
@[simp] theorem State.toIdle_program : s.toIdle.program = s.program := rfl
@[simp] theorem State.toIdle_hpc : s.toIdle.hpc = s.hpc := rfl
@[simp] theorem State.toIdle_hostLog : s.toIdle.hostLog = s.hostLog := rfl

/-! ### recordFault -/

@[simp] theorem State.recordFault_busy (f : HostFault) : (s.recordFault f).busy = s.busy := rfl
@[simp] theorem State.recordFault_ok (f : HostFault) : (s.recordFault f).ok = s.ok := rfl
@[simp] theorem State.recordFault_parked (f : HostFault) : (s.recordFault f).parked = s.parked := rfl
@[simp] theorem State.recordFault_err (f : HostFault) : (s.recordFault f).err = s.err := rfl
@[simp] theorem State.recordFault_bmStatus (f : HostFault) : (s.recordFault f).bmStatus = s.bmStatus := rfl
@[simp] theorem State.recordFault_rdata (f : HostFault) : (s.recordFault f).rdata = s.rdata := rfl
@[simp] theorem State.recordFault_addr (f : HostFault) : (s.recordFault f).addr = s.addr := rfl
@[simp] theorem State.recordFault_crc (f : HostFault) : (s.recordFault f).crc = s.crc := rfl
@[simp] theorem State.recordFault_pecRx (f : HostFault) : (s.recordFault f).pecRx = s.pecRx := rfl
@[simp] theorem State.recordFault_sclMode (f : HostFault) : (s.recordFault f).sclMode = s.sclMode := rfl
@[simp] theorem State.recordFault_sdaMode (f : HostFault) : (s.recordFault f).sdaMode = s.sdaMode := rfl
@[simp] theorem State.recordFault_phase (f : HostFault) : (s.recordFault f).phase = s.phase := rfl
@[simp] theorem State.recordFault_lsb (f : HostFault) : (s.recordFault f).lsb = s.lsb := rfl
@[simp] theorem State.recordFault_msb (f : HostFault) : (s.recordFault f).msb = s.msb := rfl
@[simp] theorem State.recordFault_faults (f : HostFault) : (s.recordFault f).faults = s.faults.insert f := rfl
@[simp] theorem State.recordFault_trace (f : HostFault) : (s.recordFault f).trace = s.trace := rfl
@[simp] theorem State.recordFault_draws (f : HostFault) : (s.recordFault f).draws = s.draws := rfl
@[simp] theorem State.recordFault_drawCount (f : HostFault) : (s.recordFault f).drawCount = s.drawCount := rfl
@[simp] theorem State.recordFault_freeReadCount (f : HostFault) : (s.recordFault f).freeReadCount = s.freeReadCount := rfl
@[simp] theorem State.recordFault_timing (f : HostFault) : (s.recordFault f).timing = s.timing := rfl
@[simp] theorem State.recordFault_program (f : HostFault) : (s.recordFault f).program = s.program := rfl
@[simp] theorem State.recordFault_hpc (f : HostFault) : (s.recordFault f).hpc = s.hpc := rfl
@[simp] theorem State.recordFault_hostLog (f : HostFault) : (s.recordFault f).hostLog = s.hostLog := rfl

/-! ### accepted -/

@[simp] theorem State.accepted_busy : s.accepted.busy = true := rfl
@[simp] theorem State.accepted_ok : s.accepted.ok = false := rfl
@[simp] theorem State.accepted_parked : s.accepted.parked = s.parked := rfl
@[simp] theorem State.accepted_err : s.accepted.err = .none := rfl
@[simp] theorem State.accepted_bmStatus : s.accepted.bmStatus = s.bmStatus := rfl
@[simp] theorem State.accepted_rdata : s.accepted.rdata = s.rdata := rfl
@[simp] theorem State.accepted_addr : s.accepted.addr = s.addr := rfl
@[simp] theorem State.accepted_crc : s.accepted.crc = s.crc := rfl
@[simp] theorem State.accepted_pecRx : s.accepted.pecRx = s.pecRx := rfl
@[simp] theorem State.accepted_sclMode : s.accepted.sclMode = s.sclMode := rfl
@[simp] theorem State.accepted_sdaMode : s.accepted.sdaMode = s.sdaMode := rfl
@[simp] theorem State.accepted_phase : s.accepted.phase = s.phase := rfl
@[simp] theorem State.accepted_lsb : s.accepted.lsb = s.lsb := rfl
@[simp] theorem State.accepted_msb : s.accepted.msb = s.msb := rfl
@[simp] theorem State.accepted_faults : s.accepted.faults = s.faults := rfl
@[simp] theorem State.accepted_trace : s.accepted.trace = s.trace := rfl
@[simp] theorem State.accepted_draws : s.accepted.draws = s.draws := rfl
@[simp] theorem State.accepted_drawCount : s.accepted.drawCount = s.drawCount := rfl
@[simp] theorem State.accepted_freeReadCount : s.accepted.freeReadCount = s.freeReadCount := rfl
@[simp] theorem State.accepted_timing : s.accepted.timing = s.timing := rfl
@[simp] theorem State.accepted_program : s.accepted.program = s.program := rfl
@[simp] theorem State.accepted_hpc : s.accepted.hpc = s.hpc := rfl
@[simp] theorem State.accepted_hostLog : s.accepted.hostLog = s.hostLog := rfl

/-! ### enter -/

@[simp] theorem State.enter_busy (i : Instr) : (s.enter i).busy = s.busy := rfl
@[simp] theorem State.enter_ok (i : Instr) : (s.enter i).ok = s.ok := rfl
@[simp] theorem State.enter_parked (i : Instr) : (s.enter i).parked = s.parked := rfl
@[simp] theorem State.enter_err (i : Instr) : (s.enter i).err = s.err := rfl
@[simp] theorem State.enter_bmStatus (i : Instr) : (s.enter i).bmStatus = s.bmStatus := rfl
@[simp] theorem State.enter_rdata (i : Instr) : (s.enter i).rdata = s.rdata := rfl
@[simp] theorem State.enter_addr (i : Instr) : (s.enter i).addr = s.addr := rfl
@[simp] theorem State.enter_crc (i : Instr) : (s.enter i).crc = s.crc := rfl
@[simp] theorem State.enter_pecRx (i : Instr) : (s.enter i).pecRx = s.pecRx := rfl
@[simp] theorem State.enter_sclMode (i : Instr) : (s.enter i).sclMode = s.sclMode := rfl
@[simp] theorem State.enter_sdaMode (i : Instr) : (s.enter i).sdaMode = s.sdaMode := rfl
@[simp] theorem State.enter_phase (i : Instr) : (s.enter i).phase = .run i 0#4 := rfl
@[simp] theorem State.enter_lsb (i : Instr) : (s.enter i).lsb = s.lsb := rfl
@[simp] theorem State.enter_msb (i : Instr) : (s.enter i).msb = s.msb := rfl
@[simp] theorem State.enter_faults (i : Instr) : (s.enter i).faults = s.faults := rfl
@[simp] theorem State.enter_trace (i : Instr) : (s.enter i).trace = s.trace := rfl
@[simp] theorem State.enter_draws (i : Instr) : (s.enter i).draws = s.draws := rfl
@[simp] theorem State.enter_drawCount (i : Instr) : (s.enter i).drawCount = s.drawCount := rfl
@[simp] theorem State.enter_freeReadCount (i : Instr) : (s.enter i).freeReadCount = s.freeReadCount := rfl
@[simp] theorem State.enter_timing (i : Instr) : (s.enter i).timing = s.timing := rfl
@[simp] theorem State.enter_program (i : Instr) : (s.enter i).program = s.program := rfl
@[simp] theorem State.enter_hpc (i : Instr) : (s.enter i).hpc = s.hpc := rfl
@[simp] theorem State.enter_hostLog (i : Instr) : (s.enter i).hostLog = s.hostLog := rfl

/-! ### bump -/

@[simp] theorem State.bump_busy : s.bump.busy = s.busy := rfl
@[simp] theorem State.bump_ok : s.bump.ok = s.ok := rfl
@[simp] theorem State.bump_parked : s.bump.parked = s.parked := rfl
@[simp] theorem State.bump_err : s.bump.err = s.err := rfl
@[simp] theorem State.bump_bmStatus : s.bump.bmStatus = s.bmStatus := rfl
@[simp] theorem State.bump_rdata : s.bump.rdata = s.rdata := rfl
@[simp] theorem State.bump_addr : s.bump.addr = s.addr := rfl
@[simp] theorem State.bump_crc : s.bump.crc = s.crc := rfl
@[simp] theorem State.bump_pecRx : s.bump.pecRx = s.pecRx := rfl
@[simp] theorem State.bump_sclMode : s.bump.sclMode = s.sclMode := rfl
@[simp] theorem State.bump_sdaMode : s.bump.sdaMode = s.sdaMode := rfl
@[simp] theorem State.bump_phase : s.bump.phase = s.phase.next := rfl
@[simp] theorem State.bump_lsb : s.bump.lsb = s.lsb := rfl
@[simp] theorem State.bump_msb : s.bump.msb = s.msb := rfl
@[simp] theorem State.bump_faults : s.bump.faults = s.faults := rfl
@[simp] theorem State.bump_trace : s.bump.trace = s.trace := rfl
@[simp] theorem State.bump_draws : s.bump.draws = s.draws := rfl
@[simp] theorem State.bump_drawCount : s.bump.drawCount = s.drawCount := rfl
@[simp] theorem State.bump_freeReadCount : s.bump.freeReadCount = s.freeReadCount := rfl
@[simp] theorem State.bump_timing : s.bump.timing = s.timing := rfl
@[simp] theorem State.bump_program : s.bump.program = s.program := rfl
@[simp] theorem State.bump_hpc : s.bump.hpc = s.hpc := rfl
@[simp] theorem State.bump_hostLog : s.bump.hostLog = s.hostLog := rfl

/-! ### logEnd -/

@[simp] theorem State.logEnd_busy : s.logEnd.busy = s.busy := rfl
@[simp] theorem State.logEnd_ok : s.logEnd.ok = s.ok := rfl
@[simp] theorem State.logEnd_parked : s.logEnd.parked = s.parked := rfl
@[simp] theorem State.logEnd_err : s.logEnd.err = s.err := rfl
@[simp] theorem State.logEnd_bmStatus : s.logEnd.bmStatus = s.bmStatus := rfl
@[simp] theorem State.logEnd_rdata : s.logEnd.rdata = s.rdata := rfl
@[simp] theorem State.logEnd_addr : s.logEnd.addr = s.addr := rfl
@[simp] theorem State.logEnd_crc : s.logEnd.crc = s.crc := rfl
@[simp] theorem State.logEnd_pecRx : s.logEnd.pecRx = s.pecRx := rfl
@[simp] theorem State.logEnd_sclMode : s.logEnd.sclMode = s.sclMode := rfl
@[simp] theorem State.logEnd_sdaMode : s.logEnd.sdaMode = s.sdaMode := rfl
@[simp] theorem State.logEnd_phase : s.logEnd.phase = s.phase := rfl
@[simp] theorem State.logEnd_lsb : s.logEnd.lsb = s.lsb := rfl
@[simp] theorem State.logEnd_msb : s.logEnd.msb = s.msb := rfl
@[simp] theorem State.logEnd_faults : s.logEnd.faults = s.faults := rfl
@[simp] theorem State.logEnd_trace : s.logEnd.trace = s.trace := rfl
@[simp] theorem State.logEnd_draws : s.logEnd.draws = s.draws := rfl
@[simp] theorem State.logEnd_drawCount : s.logEnd.drawCount = s.drawCount := rfl
@[simp] theorem State.logEnd_freeReadCount : s.logEnd.freeReadCount = s.freeReadCount := rfl
@[simp] theorem State.logEnd_timing : s.logEnd.timing = s.timing := rfl
@[simp] theorem State.logEnd_program : s.logEnd.program = s.program := rfl
@[simp] theorem State.logEnd_hpc : s.logEnd.hpc = s.hpc := rfl
@[simp] theorem State.logEnd_hostLog : s.logEnd.hostLog = if s.busy then s.hostLog else s.hostLog ++ [.ended s.ok] := rfl

/-! ### logWrite -/

@[simp] theorem State.logWrite_busy (off : Nat) (c : Word32) : (s.logWrite off c).busy = s.busy := rfl
@[simp] theorem State.logWrite_ok (off : Nat) (c : Word32) : (s.logWrite off c).ok = s.ok := rfl
@[simp] theorem State.logWrite_parked (off : Nat) (c : Word32) : (s.logWrite off c).parked = s.parked := rfl
@[simp] theorem State.logWrite_err (off : Nat) (c : Word32) : (s.logWrite off c).err = s.err := rfl
@[simp] theorem State.logWrite_bmStatus (off : Nat) (c : Word32) : (s.logWrite off c).bmStatus = s.bmStatus := rfl
@[simp] theorem State.logWrite_rdata (off : Nat) (c : Word32) : (s.logWrite off c).rdata = s.rdata := rfl
@[simp] theorem State.logWrite_addr (off : Nat) (c : Word32) : (s.logWrite off c).addr = s.addr := rfl
@[simp] theorem State.logWrite_crc (off : Nat) (c : Word32) : (s.logWrite off c).crc = s.crc := rfl
@[simp] theorem State.logWrite_pecRx (off : Nat) (c : Word32) : (s.logWrite off c).pecRx = s.pecRx := rfl
@[simp] theorem State.logWrite_sclMode (off : Nat) (c : Word32) : (s.logWrite off c).sclMode = s.sclMode := rfl
@[simp] theorem State.logWrite_sdaMode (off : Nat) (c : Word32) : (s.logWrite off c).sdaMode = s.sdaMode := rfl
@[simp] theorem State.logWrite_phase (off : Nat) (c : Word32) : (s.logWrite off c).phase = s.phase := rfl
@[simp] theorem State.logWrite_lsb (off : Nat) (c : Word32) : (s.logWrite off c).lsb = s.lsb := rfl
@[simp] theorem State.logWrite_msb (off : Nat) (c : Word32) : (s.logWrite off c).msb = s.msb := rfl
@[simp] theorem State.logWrite_faults (off : Nat) (c : Word32) : (s.logWrite off c).faults = s.faults := rfl
@[simp] theorem State.logWrite_trace (off : Nat) (c : Word32) : (s.logWrite off c).trace = s.trace := rfl
@[simp] theorem State.logWrite_draws (off : Nat) (c : Word32) : (s.logWrite off c).draws = s.draws := rfl
@[simp] theorem State.logWrite_drawCount (off : Nat) (c : Word32) : (s.logWrite off c).drawCount = s.drawCount := rfl
@[simp] theorem State.logWrite_freeReadCount (off : Nat) (c : Word32) : (s.logWrite off c).freeReadCount = s.freeReadCount := rfl
@[simp] theorem State.logWrite_timing (off : Nat) (c : Word32) : (s.logWrite off c).timing = s.timing := rfl
@[simp] theorem State.logWrite_program (off : Nat) (c : Word32) : (s.logWrite off c).program = s.program := rfl
@[simp] theorem State.logWrite_hpc (off : Nat) (c : Word32) : (s.logWrite off c).hpc = s.hpc := rfl
@[simp] theorem State.logWrite_hostLog (off : Nat) (c : Word32) : (s.logWrite off c).hostLog = s.hostLog ++ [.wrote off c] := rfl

end Sys2Proof.Machine
end

