-- ==== Sys2Proof/Laws/Ops.lean ====
section
/-! SUPPORT. One specification lemma per shared operation: what the port primitives, raise, success, acceptance and the
sequencer can do. -/

namespace Sys2Proof.Machine

/-! ### Draws -/

theorem State.draw_eq_drawAt (s : State) : s.draw = s.drawAt 0 := by
  cases h : s.draws <;> simp [State.draw, State.drawAt, h]

@[simp] theorem State.afterDraw_drawAt (s : State) (k : Nat) : s.afterDraw.drawAt k = s.drawAt (k + 1) := by
  cases h : s.draws <;> simp [State.afterDraw, State.drawAt, h, Nat.add_assoc, Nat.add_comm 1 k]

/-- `drawAt` looks only at the answers to come and at how many were taken. -/
theorem State.drawAt_congr {s t : State} (h : t.draws = s.draws) (hc : t.drawCount = s.drawCount) (k : Nat) :
    t.drawAt k = s.drawAt k := by
  simp [State.drawAt, h, hc]

/-- A state from which n answers were taken gives the k-th answer as the (n + k)-th of before. -/
theorem State.drawAt_of_drop {s t : State} {n : Nat} (h : t.draws = s.draws.drop n)
    (hc : t.drawCount = s.drawCount + n) (k : Nat) : t.drawAt k = s.drawAt (n + k) := by
  simp [State.drawAt, h, hc, List.getD, Nat.add_assoc]

/-- The same for a state written out field by field. -/
theorem State.drawAt_mk (s : State) (n k : Nat) (busy ok parked : Bool) (err : ErrKind) (bmStatus : Byte)
    (rdata : Word16) (addr : Addr7) (crc pecRx : Byte) (sclMode sdaMode : LineMode) (phase : Phase) (lsb msb : Byte)
    (faults : List HostFault) (trace : List Event) (freeReadCount : Nat) (timing : Timing) (program : List HostLine)
    (hpc : Nat) (hostLog : List HostEvent) :
    State.drawAt ⟨busy, ok, parked, err, bmStatus, rdata, addr, crc, pecRx, sclMode, sdaMode, phase, lsb, msb, faults,
      trace, s.draws.drop n, s.drawCount + n, freeReadCount, timing, program, hpc, hostLog⟩ k = s.drawAt (n + k) :=
  State.drawAt_of_drop rfl rfl k

/-! ### The port primitives, written out -/

theorem bmBegin_eq (s : State) : bmBegin s = { s with trace := s.trace ++ [.bmBegin s.addr] } := rfl

theorem bmWrite_eq (b : Byte) (s : State) : bmWrite b s = { s with trace := s.trace ++ [.bmWrite b] } := rfl

theorem bmEnd_eq (stop : Bool) (s : State) :
    bmEnd stop s = { s with draws := s.draws.tail, drawCount := s.drawCount + 1
                            trace := s.trace ++ [.bmEnd stop (s.drawAt 0)] } := by
  rw [← State.draw_eq_drawAt]; rfl

theorem bmRequest_eq (s : State) :
    bmRequest s = { s with draws := s.draws.tail, drawCount := s.drawCount + 1
                           trace := s.trace ++ [.bmRequest s.addr Config.readLen (s.drawAt 0)] } := by
  rw [← State.draw_eq_drawAt]; rfl

theorem bmRead_eq (s : State) :
    bmRead s = { s with draws := s.draws.tail, drawCount := s.drawCount + 1
                        trace := s.trace ++ [.bmRead (s.drawAt 0)] } := by
  rw [← State.draw_eq_drawAt]; rfl

theorem gpio_scl_eq (m : GpioMode) (s : State) :
    gpio .scl m s = { s with trace := s.trace ++ [.gpio .scl m], sclMode := m.toLineMode } := rfl

theorem gpio_sda_eq (m : GpioMode) (s : State) :
    gpio .sda m s = { s with trace := s.trace ++ [.gpio .sda m], sdaMode := m.toLineMode } := rfl

theorem delay_eq (ms : Nat) (s : State) : delay ms s = { s with trace := s.trace ++ [.delay ms] } := rfl

/-! ### How a command ends -/

/-- raise does the four things of R103 that concern the state. -/
theorem raise_eq (e : ErrKind) (s : State) :
    raise e s = { s with err := e, ok := false, busy := false, phase := .idle } := rfl

theorem succeed_eq (s : State) :
    succeed s = { s with err := .none, ok := true, busy := false, phase := .idle } := rfl

/-! ### Acceptance -/

theorem whenNotBusy_of_busy {s : State} (h : s.busy = true) (k : State → State) :
    whenNotBusy s k = s.recordFault .cmdWhileBusy := by simp [whenNotBusy, h]

theorem whenNotBusy_of_not_busy {s : State} (h : s.busy = false) (k : State → State) :
    whenNotBusy s k = k s.accepted := by simp [whenNotBusy, h]

/-- All that `start` can do: record F_CMD_WHILE_BUSY, or run the steps of the accepted command. -/
theorem start_cases (i : Instr) (steps : List SeqAct) (s : State) :
    (s.busy = true ∧ start i steps s = s.recordFault .cmdWhileBusy) ∨
    (s.busy = false ∧ start i steps s = runSteps steps maxSteps (s.accepted.enter i)) := by
  cases h : s.busy
  · exact .inr ⟨rfl, whenNotBusy_of_not_busy h _⟩
  · exact .inl ⟨rfl, whenNotBusy_of_busy h _⟩

/-- All that `startBus` can do: record F_CMD_WHILE_BUSY or F_BUS_WHILE_PARKED, or run the steps. -/
theorem startBus_cases (i : Instr) (steps : List SeqAct) (s : State) :
    (s.busy = true ∧ startBus i steps s = s.recordFault .cmdWhileBusy) ∨
    (s.busy = false ∧ s.parked = true ∧ startBus i steps s = s.accepted.recordFault .busWhileParked) ∨
    (s.busy = false ∧ s.parked = false ∧ startBus i steps s = runSteps steps maxSteps (s.accepted.enter i)) := by
  cases h : s.busy
  · cases hp : s.parked
    · exact .inr (.inr ⟨rfl, rfl, by simp [startBus, whenNotBusy_of_not_busy h, whenNotParked, hp]⟩)
    · exact .inr (.inl ⟨rfl, rfl, by simp [startBus, whenNotBusy_of_not_busy h, whenNotParked, hp]⟩)
  · exact .inl ⟨rfl, whenNotBusy_of_busy h _⟩

/-- ILLEGAL_CMD on an idle block (R102). -/
theorem illegalWord_of_not_busy {s : State} (h : s.busy = false) :
    illegalWord s = { s with ok := false, err := .illegalCmd } := by
  rw [illegalWord, whenNotBusy_of_not_busy h]
  simp only [State.accepted, ← h]

/-! ### The sequencer -/

@[simp] theorem runSteps_zero (steps : List SeqAct) (s : State) : runSteps steps 0 s = s := rfl

/-- A command that has ended is not carried further. -/
theorem runSteps_of_idle (steps : List SeqAct) (fuel : Nat) {s : State} (h : s.phase = .idle) :
    runSteps steps fuel s = s := by
  cases fuel <;> simp [runSteps, h, Phase.isIdle]

/-- A command is not carried further once the host is to act. -/
theorem runSteps_of_hostDue (steps : List SeqAct) (fuel : Nat) {s : State} (h : s.hostDue = true) :
    runSteps steps fuel s = s := by
  cases fuel <;> simp [runSteps, h]

/-- One step of a running command. -/
theorem runSteps_succ (steps : List SeqAct) (fuel : Nat) {s : State} {i : Instr} {n : BitVec 4}
    (hp : s.phase = .run i n) (hd : s.hostDue = false) :
    runSteps steps (fuel + 1) s = runSteps steps fuel (seqTick steps s) := by
  simp [runSteps, hp, hd, Phase.isIdle]

/-- What the tick does where the list has an action at STEP. -/
theorem seqTick_of_get (steps : List SeqAct) {s : State} {i : Instr} {n : BitVec 4} {act : SeqAct}
    (hp : s.phase = .run i n) (ha : steps[n.toNat]? = some act) : seqTick steps s = (act s).bump := by
  simp [seqTick, hp, ha]

/-- The induction over a run, once: what every action keeps, the run keeps. -/
theorem runSteps_keeps {P : State → Prop} (steps : List SeqAct)
    (tick : ∀ s, P s → P (seqTick steps s)) : ∀ (fuel : Nat) (s : State), P s → P (runSteps steps fuel s) := by
  intro fuel
  induction fuel with
  | zero => intro s h; exact h
  | succ fuel ih =>
    intro s h
    unfold runSteps
    split
    · exact h
    · exact ih _ (tick s h)

/-- A property that the actions keep and that no phase touches is kept by the tick. -/
theorem seqTick_keeps {P : State → Prop} (steps : List SeqAct) (acts : ∀ act ∈ steps, ∀ s, P s → P (act s))
    (bump : ∀ s, P s → P s.bump) (s : State) (h : P s) : P (seqTick steps s) := by
  unfold seqTick
  split
  · exact h
  · split
    · rename_i act ha
      exact bump _ (acts act (List.mem_of_getElem? ha) s h)
    · exact h

/-- The host that waits is never due. -/
theorem hostDue_of_hostWaits {s : State} (h : s.hostWaits = true) : s.hostDue = false := by
  unfold State.hostWaits at h
  unfold State.hostDue
  cases hp : s.phase <;> cases hl : s.nextLine <;> simp_all

/-- Whether the host waits depends on its program and on its place in it only. -/
theorem hostWaits_congr {s t : State} (hp : t.program = s.program) (hh : t.hpc = s.hpc) :
    t.hostWaits = s.hostWaits := by
  simp [State.hostWaits, State.nextLine, hp, hh]

/-- One step of a command that the host does not interrupt: the action at STEP, then STEP <- STEP + 1. -/
theorem runSteps_step (steps : List SeqAct) (fuel : Nat) {s : State} {i : Instr} {n : BitVec 4} {act : SeqAct}
    (hw : s.hostWaits = true) (hp : s.phase = .run i n) (ha : steps[n.toNat]? = some act) :
    runSteps steps (fuel + 1) s = runSteps steps fuel (act s).bump := by
  rw [runSteps_succ steps fuel hp (hostDue_of_hostWaits hw), seqTick_of_get steps hp ha]

/-- Entering a command does not move the host. -/
theorem hostWaits_enter {s : State} (i : Instr) (hw : s.hostWaits = true) :
    (s.accepted.enter i).hostWaits = true := by
  rw [← hw]; exact hostWaits_congr rfl rfl

end Sys2Proof.Machine
end

