-- ==== Sys2Proof/Laws/Commands.lean ====
section
/-! SUPPORT. One specification lemma per action of the codec and the sequencer that decides something: each says in one
equation both ways it can go. -/

namespace Sys2Proof.Machine

/-- A stop or repeated-start end whose status is recorded. -/
theorem bmEndRecorded_eq (stop : Bool) (s : State) :
    bmEndRecorded stop s =
      { s with bmStatus := s.drawAt 0, draws := s.draws.tail, drawCount := s.drawCount + 1
               trace := s.trace ++ [.bmEnd stop (s.drawAt 0)] } := by
  rw [bmEndRecorded, bmEnd_eq, State.draw_eq_drawAt]

/-- PROBE STEP 1 and WRITE_WORD STEP 6: success or NAK, by the status. -/
theorem finalEnd_eq (s : State) :
    finalEnd s =
      { s with bmStatus := s.drawAt 0, draws := s.draws.tail, drawCount := s.drawCount + 1
               trace := s.trace ++ [.bmEnd true (s.drawAt 0)]
               busy := false, phase := .idle
               ok := decide (s.drawAt 0 = 0#8), err := if s.drawAt 0 = 0#8 then .none else .nak } := by
  rw [finalEnd, bmEndRecorded_eq, State.draw_eq_drawAt, nakUnlessZero]
  split <;> simp_all [succeed_eq, raise_eq]

/-- READ_WORD STEP 2: go on, or NAK, by the status. -/
theorem readSelect_eq (s : State) :
    readSelect s = if s.drawAt 0 = 0#8 then bmEndRecorded false s else raise .nak (bmEndRecorded false s) := by
  rw [readSelect, nakUnlessZero, State.draw_eq_drawAt]; rfl

/-- READ_WORD STEP 3: go on, or SHORT_READ, by the count. -/
theorem readRequest_eq (s : State) :
    readRequest s = if s.drawAt 0 = 3#8 then bmRequest s else raise .shortRead (bmRequest s) := by
  rw [readRequest, State.draw_eq_drawAt]; rfl

theorem readLsb_eq (s : State) :
    readLsb s = { s with lsb := s.drawAt 0, draws := s.draws.tail, drawCount := s.drawCount + 1
                         trace := s.trace ++ [.bmRead (s.drawAt 0)] } := by
  rw [readLsb, bmRead_eq, State.draw_eq_drawAt]

theorem readMsb_eq (s : State) :
    readMsb s = { s with msb := s.drawAt 0, draws := s.draws.tail, drawCount := s.drawCount + 1
                         trace := s.trace ++ [.bmRead (s.drawAt 0)] } := by
  rw [readMsb, bmRead_eq, State.draw_eq_drawAt]

theorem readPec_eq (s : State) :
    readPec s = { s with pecRx := s.drawAt 0, draws := s.draws.tail, drawCount := s.drawCount + 1
                         trace := s.trace ++ [.bmRead (s.drawAt 0)] } := by
  rw [readPec, bmRead_eq, State.draw_eq_drawAt]

/-- READ_WORD STEP 7: RDATA on a match, PEC_MISMATCH otherwise; PEC.CRC in both cases. -/
theorem readCheck_eq (reg : Byte) (s : State) :
    readCheck reg s =
      if pec (readStream s.addr reg s.lsb s.msb) = s.pecRx then
        { s with crc := pec (readStream s.addr reg s.lsb s.msb), rdata := wordOf s.msb s.lsb
                 busy := false, phase := .idle, ok := true, err := .none }
      else
        { s with crc := pec (readStream s.addr reg s.lsb s.msb)
                 busy := false, phase := .idle, ok := false, err := .pecMismatch } := by
  rw [readCheck]; split <;> simp_all [succeed_eq, raise_eq]

/-- SET_ADDR's step: ADDR in range, BAD_ARG out of it. -/
theorem setAddrAct_eq (a8 : Byte) (s : State) :
    setAddrAct a8 s =
      if legalAddr a8 = true then
        { s with addr := lowSeven a8, busy := false, phase := .idle, ok := true, err := .none }
      else { s with busy := false, phase := .idle, ok := false, err := .badArg } := by
  rw [setAddrAct]; split <;> simp_all [succeed_eq, raise_eq]

/-- The range of SET_ADDR is 1 to 127. -/
theorem legalAddr_iff (a8 : Byte) : legalAddr a8 = true ↔ 1 ≤ a8.toNat ∧ a8.toNat ≤ 127 := by
  revert a8; decide +kernel

/-- SLEEP STEP 6: the lines are parked in both cases; success or NAK by the recorded status. -/
theorem sleepPark_eq (s : State) :
    sleepPark s =
      { s with trace := s.trace ++ [.gpio .sda .input], sdaMode := .input, parked := true
               busy := false, phase := .idle
               ok := decide (s.bmStatus = 0#8), err := if s.bmStatus = 0#8 then .none else .nak } := by
  rw [sleepPark, gpio_sda_eq, nakUnlessZero]
  split <;> simp_all [succeed_eq, raise_eq, GpioMode.toLineMode]

/-- WAKE STEP 9. -/
theorem wakeHandBack_eq (s : State) :
    wakeHandBack s =
      { s with trace := s.trace ++ [.bmBegin s.addr], sclMode := .bus, sdaMode := .bus, parked := false
               busy := false, phase := .idle, ok := true, err := .none } := rfl

/-- The meaning of every command is a next state: no command ends in a fault or a refusal. -/
theorem exec_isNext (i : Instr) (s : State) : ∃ t, exec i s = .next t := by
  cases i <;> exact ⟨_, rfl⟩

end Sys2Proof.Machine
end

