-- ==== Sys2Proof/Laws/Decode.lean ====
section
/-! SUPPORT. The bits and the fields of a packed command word, and every word as the packing of its fields
(30_encoding.md R66). -/

namespace Sys2Proof

/-- Which field holds bit i of a packed word (R66). -/
theorem packWord_getLsbD (op : BitVec 4) (reg hi lo : Byte) (i : Nat) :
    (packWord op reg hi lo).getLsbD i =
      if i < 8 then lo.getLsbD i
      else if i < 16 then hi.getLsbD (i - 8)
      else if i < 24 then reg.getLsbD (i - 16)
      else if i < 28 then false
      else op.getLsbD (i - 28) := by
  have h : (op ++ 0#4 ++ reg ++ hi ++ lo : BitVec (4 + 4 + 8 + 8 + 8)).getLsbD i =
      if i < 8 then lo.getLsbD i
      else if i < 16 then hi.getLsbD (i - 8)
      else if i < 24 then reg.getLsbD (i - 16)
      else if i < 28 then false
      else op.getLsbD (i - 28) := by
    simp only [BitVec.getLsbD_append, Nat.sub_sub]
    split_ifs <;> first | rfl | omega | simp
  exact h

@[simp] theorem opField_packWord (op : BitVec 4) (reg hi lo : Byte) : opField (packWord op reg hi lo) = op := by
  apply BitVec.eq_of_getLsbD_eq
  intro i hi
  rw [opField, BitVec.getLsbD_extractLsb', packWord_getLsbD]
  rw [if_neg (by omega), if_neg (by omega), if_neg (by omega), if_neg (by omega)]
  simp [hi]

@[simp] theorem rsvField_packWord (op : BitVec 4) (reg hi lo : Byte) : rsvField (packWord op reg hi lo) = 0#4 := by
  apply BitVec.eq_of_getLsbD_eq
  intro i hi
  rw [rsvField, BitVec.getLsbD_extractLsb', packWord_getLsbD]
  rw [if_neg (by omega), if_neg (by omega), if_neg (by omega), if_pos (by omega)]
  simp

@[simp] theorem regField_packWord (op : BitVec 4) (reg hi lo : Byte) : regField (packWord op reg hi lo) = reg := by
  apply BitVec.eq_of_getLsbD_eq
  intro i hi
  rw [regField, BitVec.getLsbD_extractLsb', packWord_getLsbD]
  rw [if_neg (by omega), if_neg (by omega), if_pos (by omega)]
  simp [hi]

@[simp] theorem hiField_packWord (op : BitVec 4) (reg hi lo : Byte) : hiField (packWord op reg hi lo) = hi := by
  apply BitVec.eq_of_getLsbD_eq
  intro i hi
  rw [hiField, BitVec.getLsbD_extractLsb', packWord_getLsbD]
  rw [if_neg (by omega), if_pos (by omega)]
  simp [hi]

@[simp] theorem loField_packWord (op : BitVec 4) (reg hi lo : Byte) : loField (packWord op reg hi lo) = lo := by
  apply BitVec.eq_of_getLsbD_eq
  intro i hi
  rw [loField, BitVec.getLsbD_extractLsb', packWord_getLsbD]
  rw [if_pos (by omega)]
  simp [hi]

/-- A word whose RSV is 0 is the packing of its other fields. -/
theorem packWord_fields {c : Word32} (h : rsvField c = 0#4) :
    packWord (opField c) (regField c) (hiField c) (loField c) = c := by
  apply BitVec.eq_of_getLsbD_eq
  intro i hi
  rw [packWord_getLsbD]
  split_ifs with h1 h2 h3 h4
  · simp [loField, h1]
  · have e : 8 + (i - 8) = i := by omega
    simp [hiField, BitVec.getLsbD_extractLsb', e]; omega
  · have e : 16 + (i - 16) = i := by omega
    simp [regField, BitVec.getLsbD_extractLsb', e]; omega
  · have hz := congrArg (fun v => v.getLsbD (i - 24)) h
    have e : 24 + (i - 24) = i := by omega
    simp only [rsvField, BitVec.getLsbD_extractLsb', e] at hz
    simpa [show i - 24 < 4 by omega] using hz.symm
  · have e : 28 + (i - 28) = i := by omega
    simp [opField, BitVec.getLsbD_extractLsb', e]; omega

end Sys2Proof
end

