-- ==== Sys2Proof/Laws/EepromDuty.lean ====
section
/-! SUPPORT. What the check of the EEPROM duties can do: which write of the sequence a WRITE_WORD is, and one entry of
the log at a time. -/

namespace Sys2Proof.Machine

/-- A write is the program write exactly if the erase before it succeeded and its wait is complete. -/
theorem nextEeWrite_program_iff (tm : Timing) (stage : Option EeStage) (w : Word16) :
    nextEeWrite tm stage w = some .program ↔ ∃ n, stage = some (.erased n) ∧ tm.eeErase ≤ n := by
  cases stage with
  | none => simp [nextEeWrite]
  | some e => cases e <;> simp [nextEeWrite]

/-- A write is an erase exactly if no erase that counts is before it, it writes 0x0000, and no program wait is running. -/
theorem nextEeWrite_erase_iff (tm : Timing) (stage : Option EeStage) (w : Word16) :
    nextEeWrite tm stage w = some .erase ↔
      (∀ n, stage ≠ some (.erased n)) ∧ w = 0x0000#16 ∧ maySettle tm stage = true := by
  cases stage with
  | none => simp [nextEeWrite]
  | some e => cases e <;> simp [nextEeWrite]

@[simp] theorem stageOf_nil (reg : Byte) : stageOf reg [] = none := rfl

@[simp] theorem stageOf_cons_self (reg : Byte) (e : EeStage) (t : List (Byte × EeStage)) :
    stageOf reg ((reg, e) :: t) = some e := by simp [stageOf]

/-- A register taken out of the stages has none. -/
@[simp] theorem stageOf_withoutStage (reg : Byte) (t : List (Byte × EeStage)) :
    stageOf reg (withoutStage reg t) = none := by
  simp [stageOf, withoutStage]

theorem eepromDutyFrom_nil (tm : Timing) (k : EeCheck) : eepromDutyFrom tm k [] = k.finished tm := rfl

/-- The check goes through the log entry by entry, and a breach is final. -/
theorem eepromDutyFrom_cons (tm : Timing) (k : EeCheck) (e : HostEvent) (es : List HostEvent) :
    eepromDutyFrom tm k (e :: es) =
      match eeEvent tm k e with
      | some k' => eepromDutyFrom tm k' es
      | none => false := by
  simp only [eepromDutyFrom, List.foldlM_cons]
  cases eeEvent tm k e <;> rfl

end Sys2Proof.Machine
end

