-- ==== Sys2Proof/Laws/PerInstr.lean ====
section
/-! SUPPORT. A statement for every command, one lemma per constructor: the word the encoder gives belongs to the
command's own row of the command map (30_encoding.md R70), so no fixed bit of an encoding is wrong. -/

namespace Sys2Proof.Laws.RowMatch

/-- The encoded word selects the row of its command. -/
def Statement (i : Instr) : Prop := i.row.selects (encode i) = true

theorem fixed_bits (op : BitVec 4) (reg hi lo : Byte) (mo mr : BitVec 4) (mg mh ml : Byte) :
    packWord op reg hi lo &&& (mo ++ mr ++ mg ++ mh ++ ml)
      = packWord (op &&& mo) (reg &&& mg) (hi &&& mh) (lo &&& ml) := by
  have h : (op ++ 0#4 ++ reg ++ hi ++ lo : BitVec (4 + 4 + 8 + 8 + 8)) &&& (mo ++ mr ++ mg ++ mh ++ ml)
      = (op &&& mo) ++ 0#4 ++ (reg &&& mg) ++ (hi &&& mh) ++ (lo &&& ml) := by
    simp only [BitVec.and_append, BitVec.zero_and]
  exact h

theorem crcStep (seed data : Byte) : Statement (.crcStep seed data) := by
  have h := fixed_bits 0x1#4 0#8 seed data 0xF#4 0xF#4 0xFF#8 0#8 0#8
  have e : (0xF#4 ++ 0xF#4 ++ 0xFF#8 ++ 0#8 ++ 0#8 : BitVec 32) = 0xFFFF0000#32 := by decide
  rw [e] at h
  simp only [Statement, Instr.row, CmdRow.selects, encode, h]
  simp [packWord]

theorem setAddr (a8 : Byte) : Statement (.setAddr a8) := by
  have h := fixed_bits 0x2#4 0#8 0#8 a8 0xF#4 0xF#4 0xFF#8 0xFF#8 0#8
  have e : (0xF#4 ++ 0xF#4 ++ 0xFF#8 ++ 0xFF#8 ++ 0#8 : BitVec 32) = 0xFFFFFF00#32 := by decide
  rw [e] at h
  simp only [Statement, Instr.row, CmdRow.selects, encode, h]
  simp [packWord]

theorem probe : Statement .probe := by unfold Statement; decide

theorem readWord (reg : Byte) : Statement (.readWord reg) := by
  have h := fixed_bits 0x4#4 reg 0#8 0#8 0xF#4 0xF#4 0#8 0xFF#8 0xFF#8
  have e : (0xF#4 ++ 0xF#4 ++ 0#8 ++ 0xFF#8 ++ 0xFF#8 : BitVec 32) = 0xFF00FFFF#32 := by decide
  rw [e] at h
  simp only [Statement, Instr.row, CmdRow.selects, encode, h]
  simp [packWord]

theorem writeWord (reg : Byte) (w : Word16) : Statement (.writeWord reg w) := by
  have h := fixed_bits 0x5#4 reg (w.extractLsb' 8 8) (w.extractLsb' 0 8) 0xF#4 0xF#4 0#8 0#8 0#8
  have e : (0xF#4 ++ 0xF#4 ++ 0#8 ++ 0#8 ++ 0#8 : BitVec 32) = 0xFF000000#32 := by decide
  rw [e] at h
  simp only [Statement, Instr.row, CmdRow.selects, encode, h]
  simp [packWord]

theorem sleep : Statement .sleep := by unfold Statement; decide

theorem wake : Statement .wake := by unfold Statement; decide

end Sys2Proof.Laws.RowMatch
end

