-- ==== Sys2Proof/Laws/Step.lean ====
section
/-! SUPPORT. Inversion lemmas, once each: all that a command, a host access, a host act and a step can do when they
answer a next state. -/

namespace Sys2Proof.Machine

/-- All that a command can do: record one of the two faults, or run its steps after acceptance (R99). -/
theorem exec_cases {i : Instr} {s t : State} (h : exec i s = .next t) :
    (s.busy = true ∧ t = s.recordFault .cmdWhileBusy) ∨
    (s.busy = false ∧ usesBus i = true ∧ s.parked = true ∧ t = s.accepted.recordFault .busWhileParked) ∨
    (s.busy = false ∧ (usesBus i = true → s.parked = false) ∧
      t = runSteps (stepsOf i) maxSteps (s.accepted.enter i)) := by
  have bus : ∀ steps : List SeqAct, stepsOf i = steps → usesBus i = true → t = startBus i steps s →
      (s.busy = true ∧ t = s.recordFault .cmdWhileBusy) ∨
      (s.busy = false ∧ usesBus i = true ∧ s.parked = true ∧ t = s.accepted.recordFault .busWhileParked) ∨
      (s.busy = false ∧ (usesBus i = true → s.parked = false) ∧
        t = runSteps (stepsOf i) maxSteps (s.accepted.enter i)) := by
    intro steps hs hu ht
    rcases startBus_cases i steps s with ⟨a, b⟩ | ⟨a, b, c⟩ | ⟨a, b, c⟩
    · exact Or.inl ⟨a, ht.trans b⟩
    · exact Or.inr (Or.inl ⟨a, hu, b, ht.trans c⟩)
    · exact Or.inr (Or.inr ⟨a, fun _ => b, by rw [hs]; exact ht.trans c⟩)
  have free : ∀ steps : List SeqAct, stepsOf i = steps → usesBus i = false → t = start i steps s →
      (s.busy = true ∧ t = s.recordFault .cmdWhileBusy) ∨
      (s.busy = false ∧ usesBus i = true ∧ s.parked = true ∧ t = s.accepted.recordFault .busWhileParked) ∨
      (s.busy = false ∧ (usesBus i = true → s.parked = false) ∧
        t = runSteps (stepsOf i) maxSteps (s.accepted.enter i)) := by
    intro steps hs hu ht
    rcases start_cases i steps s with ⟨a, b⟩ | ⟨a, b⟩
    · exact Or.inl ⟨a, ht.trans b⟩
    · exact Or.inr (Or.inr ⟨a, fun e => by simp [hu] at e, by rw [hs]; exact ht.trans b⟩)
  cases i <;> simp only [exec, Host.Outcome.next.injEq, execCrcStep, execSetAddr, execProbe, execReadWord,
    execWriteWord, execSleep, execWake] at h
  · exact free _ rfl rfl h.symm
  · exact free _ rfl rfl h.symm
  · exact bus _ rfl rfl h.symm
  · exact bus _ rfl rfl h.symm
  · exact bus _ rfl rfl h.symm
  · exact bus _ rfl rfl h.symm
  · exact free _ rfl rfl h.symm

/-- A write of a word to CMD: the command it decodes to, or the illegal word. -/
theorem writeCmd_cases {c : Word32} {s t : State} (h : writeCmd c s = .next t) :
    (∃ i, decode c = .ok i ∧ exec i s = .next t) ∨ ((∃ e, decode c = .error e) ∧ t = illegalWord s) := by
  unfold writeCmd at h
  split at h
  · rename_i i hd; exact .inl ⟨i, hd, h⟩
  · rename_i e hd; exact .inr ⟨⟨e, hd⟩, by simpa using h.symm⟩

@[simp] theorem endLogged_next (t : State) : endLogged (.next t) = .next t.logEnd := rfl

/-- An outcome with the completion logged is a next state exactly if the command's is. -/
theorem endLogged_cases {o : Host.Outcome State Fault Refusal} {t : State} (h : endLogged o = .next t) :
    ∃ u, o = .next u ∧ t = u.logEnd := by
  cases o with
  | next u => exact ⟨u, rfl, by simpa [endLogged] using h.symm⟩
  | fault r => cases h
  | refused r => cases h

/-- What the illegal word can do. -/
theorem illegalWord_cases (s : State) :
    (s.busy = true ∧ illegalWord s = s.recordFault .cmdWhileBusy) ∨
    (s.busy = false ∧ illegalWord s = { s with ok := false, err := .illegalCmd }) := by
  by_cases h : s.busy = true
  · exact .inl ⟨h, whenNotBusy_of_busy h _⟩
  · exact .inr ⟨by simpa using h, illegalWord_of_not_busy (by simpa using h)⟩

/-- All that a host access can do: F_HOST_ACCESS, or what a whole word access does. -/
theorem hostAccess_cases {off size : Nat} {s t : State} {k : Host.Outcome State Fault Refusal}
    (h : hostAccess off size s k = .next t) :
    (wholeWord off size = false ∧ t = s.recordFault .hostAccess) ∨
    (wholeWord off size = true ∧ off ≤ 0x3C ∧ k = .next t) := by
  unfold hostAccess at h
  split at h
  · split at h
    · exact .inr ⟨by assumption, by assumption, h⟩
    · cases h
  · exact .inl ⟨by simp_all, by simpa using h.symm⟩

/-- All that a host write can do. -/
theorem hostWrite_cases {off size : Nat} {c : Word32} {s t : State} (h : hostWrite off size c s = .next t) :
    t = s.recordFault .hostAccess ∨ t = s.logWrite off c ∨
    (off = 0 ∧ ∃ u, writeCmd c (s.logWrite off c) = .next u ∧ t = u.logEnd) := by
  rcases hostAccess_cases h with ⟨_, h⟩ | ⟨_, _, h⟩
  · exact .inl h
  · split at h
    · exact .inr (.inr ⟨by assumption, endLogged_cases h⟩)
    · exact .inr (.inl (by simpa using h.symm))

/-- All that an act of the host can do. -/
theorem hostAct_cases {a : HostAct} {s t : State} (h : hostAct a s = .next t) :
    (∃ u, (u = s ∨ u = afterRead 0x10 s) ∧
      (t = u.recordFault .hostAccess ∨ (∃ off c, t = u.logWrite off c) ∨
       ∃ c v, writeCmd c (u.logWrite 0 c) = .next v ∧ t = v.logEnd)) ∨
    (∃ off, t = afterRead off s) ∨ (∃ n, t = hostWait n s) ∨ (∃ n, t = hostIfFail n s) ∨
    (s.busy = false ∧ t = resetBlock s) := by
  cases a with
  | write off size c =>
    rcases hostWrite_cases h with h | h | ⟨h0, h⟩
    · exact .inl ⟨s, .inl rfl, .inl h⟩
    · exact .inl ⟨s, .inl rfl, .inr (.inl ⟨_, _, h⟩)⟩
    · subst h0; exact .inl ⟨s, .inl rfl, .inr (.inr ⟨_, h⟩)⟩
  | read off size =>
    rcases hostAccess_cases h with ⟨_, h⟩ | ⟨_, _, h⟩
    · exact .inl ⟨s, .inl rfl, .inl h⟩
    · exact .inr (.inl ⟨off, by simpa using h.symm⟩)
  | crcNext b =>
    simp only [hostAct, hostCrcNext] at h
    rcases hostWrite_cases h with h | h | ⟨_, h⟩
    · exact .inl ⟨_, .inr rfl, .inl h⟩
    · exact .inl ⟨_, .inr rfl, .inr (.inl ⟨_, _, h⟩)⟩
    · exact .inl ⟨_, .inr rfl, .inr (.inr ⟨_, h⟩)⟩
  | waitMs n => exact .inr (.inr (.inl ⟨n, by simpa [hostAct] using h.symm⟩))
  | ifFail n => exact .inr (.inr (.inr (.inl ⟨n, by simpa [hostAct] using h.symm⟩)))
  | reset =>
    simp only [hostAct, hostReset] at h
    split at h
    · cases h
    · exact .inr (.inr (.inr (.inr ⟨by simp_all, by simpa using h.symm⟩)))

/-- All that a step can do: the timing is well formed, FAULTS is empty, and the sequencer goes on, or the host has
nothing to do, or the host acts. -/
theorem step_cases {s t : State} (h : step s = .next t) :
    s.timing.wf = true ∧ s.faults = [] ∧
    ((s.busy = true ∧ s.hostDue = false ∧ t = (resume s).logEnd) ∨
     (s.nextLine = none ∧ t = s) ∨
     ∃ l, s.nextLine = some l ∧ hostAct l.act { s with hpc := s.hpc + 1 } = .next t) := by
  unfold step nextMove at h
  split at h
  · cases h
  · split at h
    · cases h
    · refine ⟨by simp_all, by simp_all, ?_⟩
      split at h
      · exact .inl ⟨by simp_all, by simp_all, by simpa using h.symm⟩
      · unfold hostMove at h
        split at h
        · rename_i l hl; exact .inr (.inr ⟨l, hl, h⟩)
        · rename_i hl; exact .inr (.inl ⟨hl, by simpa using h.symm⟩)

/-- An element placed in a list is found there. -/
theorem placeAt_get {α : Type} (a : α) : ∀ (n : Nat) (l : List α), (placeAt a n l)[n]? = some a
  | 0, [] => rfl
  | 0, _ :: _ => rfl
  | n + 1, [] => placeAt_get a n []
  | n + 1, _ :: l => placeAt_get a n l

/-- withFetchWord makes the very next step the write of that word to CMD. -/
theorem step_withFetchWord (s : State) (nbits w : Nat) (ht : s.timing.wf = true) :
    step (s.withFetchWord nbits w) =
      endLogged (writeCmd (BitVec.ofNat 32 (w % 2 ^ nbits))
        (({ s.withFetchWord nbits w with hpc := s.hpc + 1 } : State).logWrite 0
          (BitVec.ofNat 32 (w % 2 ^ nbits)))) := by
  have hl : (s.withFetchWord nbits w).nextLine =
      some { act := .write 0x00 4 (BitVec.ofNat 32 (w % 2 ^ nbits)), during := none } := placeAt_get _ _ _
  have h1 : (s.withFetchWord nbits w).timing = s.timing := rfl
  have h2 : (s.withFetchWord nbits w).faults = [] := rfl
  have h3 : (s.withFetchWord nbits w).busy = false := rfl
  simp [step, nextMove, h1, h2, h3, ht, hostMove, hl, hostAct, hostWrite, hostAccess, wholeWord]
  rfl

end Sys2Proof.Machine
end

