-- ==== Sys2Proof/Tests/Slice0.lean ====
section
/-! SUPPORT. Tests. Every expected value comes from spec/95_test_vectors.md or from the encoding tables of
30_encoding.md. The witnesses show a concrete state and operands that meet the hypotheses of each statement. -/

namespace Sys2Proof.Tests

open Sys2Proof Sys2Proof.Machine

/-! ### Helpers -/

/-- The state a command leads to. -/
def after (i : Instr) (s : State) : State :=
  match exec i s with
  | .next t => t
  | .fault _ => s
  | .refused _ => s

/-- The state a step leads to. -/
def stepped (s : State) : State :=
  match step s with
  | .next t => t
  | .fault _ => s
  | .refused _ => s

/-- Reset, with the environment's next answers. -/
def withDraws (l : List Byte) : State := { State.reset with draws := l }

/-- Parked, as SLEEP leaves the block. -/
def parkedState : State := { State.reset with parked := true, sclMode := .outputLow, sdaMode := .input }

/-- A PROBE has been accepted and no event has happened. -/
def busyState : State := { State.reset with busy := true, phase := .run .probe 0#4 }

/-- The check of R124 over a whole log, with the default timing. -/
def eepromDuty (log : List HostEvent) : Bool := State.eepromDuty { State.reset with hostLog := log }

/-- Reset, with a host program. -/
def withProgram (p : List HostLine) : State := { State.reset with program := p }

/-! ### Well-formedness: an ill-formed term for each check -/

theorem test_default_timing_wf : Timing.default.wf = true := by decide
theorem test_floor_timing_wf : Timing.wf ⟨33, 250, 2, 5, 5⟩ = true := by decide
theorem test_illformed_wakeSdaLow : Timing.wf ⟨32, 250, 10, 10, 10⟩ = false := by decide
theorem test_illformed_startup : Timing.wf ⟨50, 249, 10, 10, 10⟩ = false := by decide
theorem test_illformed_sclLow : Timing.wf ⟨50, 250, 1, 10, 10⟩ = false := by decide
theorem test_illformed_eeErase : Timing.wf ⟨50, 250, 10, 4, 10⟩ = false := by decide
theorem test_illformed_eeWrite : Timing.wf ⟨50, 250, 10, 10, 4⟩ = false := by decide
theorem test_instr_wf : Instr.wf (.setAddr 0x80#8) = true := by decide

/-! ### Decoding: words written out from the encoding of R66 and R70 -/

-- OP 0001, RSV 0000, REG 00000000, HI 00000101, LO 11111111
theorem test_decode_crcStep :
    decode 0b0001_0000_00000000_00000101_11111111#32 = .ok (.crcStep 0x05#8 0xFF#8) := by decide
-- OP 0010, LO 01011010
theorem test_decode_setAddr :
    decode 0b0010_0000_00000000_00000000_01011010#32 = .ok (.setAddr 0x5A#8) := by decide
-- OP 0011
theorem test_decode_probe : decode 0b0011_0000_00000000_00000000_00000000#32 = .ok .probe := by decide
-- OP 0100, REG 00000111
theorem test_decode_readWord :
    decode 0b0100_0000_00000111_00000000_00000000#32 = .ok (.readWord 0x07#8) := by decide
-- OP 0101, REG 00100100, HI 11110011, LO 00110010
theorem test_decode_writeWord :
    decode 0b0101_0000_00100100_11110011_00110010#32 = .ok (.writeWord 0x24#8 0xF332#16) := by decide
-- OP 0110
theorem test_decode_sleep : decode 0b0110_0000_00000000_00000000_00000000#32 = .ok .sleep := by decide
-- OP 0111
theorem test_decode_wake : decode 0b0111_0000_00000000_00000000_00000000#32 = .ok .wake := by decide

-- 95_test_vectors.md section 2.8, one word for each reason
theorem test_illegal_op0 : decode 0x00000000#32 = .error .opUndefined := by decide
theorem test_illegal_op15 : decode 0xF0000000#32 = .error .opUndefined := by decide
theorem test_illegal_rsv : decode 0x48070000#32 = .error .rsvNonzero := by decide
theorem test_illegal_reg : decode 0x60FF0000#32 = .error .regNonzero := by decide
theorem test_illegal_hi : decode 0x20000100#32 = .error .hiNonzero := by decide
theorem test_illegal_lo : decode 0x40070001#32 = .error .loNonzero := by decide

theorem test_tableWord : decodeTableWord 32 0x5024F332 = some (.writeWord 0x24#8 0xF332#16) := by decide

/-! ### The PEC generator (95_test_vectors.md section 2.1) -/

theorem test_crc_poly : crc8Step 0x00#8 0x01#8 = 0x07#8 := by decide
theorem test_crc_top_bit : crc8Step 0x00#8 0x80#8 = 0x89#8 := by decide
set_option maxRecDepth 4000 in
theorem test_pec_be07 : pec [0xBE#8, 0x07#8] = 0x8C#8 := by decide
set_option maxRecDepth 4000 in
theorem test_pec_read : pec (readStream 0x5A#7 0x07#8 0xE1#8 0x3A#8) = 0xF6#8 := by decide

/-! ### The commands (95_test_vectors.md section 2) -/

theorem test_crcStep : (after (.crcStep 0x12#8 0x34#8) State.reset).crc = 0xF2#8 := by decide
theorem test_crcStep_parked :
    let t := after (.crcStep 0x00#8 0xB4#8) parkedState
    (t.statusWord, t.pecWord) = (0x00000006#32, 0x00000005#32) := by decide
theorem test_setAddr_top : (after (.setAddr 0x7F#8) State.reset).addrWord = 0x0000007F#32 := by decide
theorem test_setAddr_bad :
    let t := after (.setAddr 0x80#8) State.reset
    (t.statusWord, t.addrWord) = (0x00000040#32, 0x0000005A#32) := by decide
theorem test_probe_nak :
    let t := after .probe (withDraws [0xFF#8])
    (t.statusWord, t.trace) = (0x0000FF10#32, [.bmBegin 0x5A#7, .bmEnd true 0xFF#8]) := by decide
set_option maxRecDepth 4000 in
theorem test_readWord_addr01 :
    let t := after (.readWord 0x2E#8) { withDraws [0, 3, 0x5A, 0xBE, 0xCE] with addr := 0x01#7 }
    (t.rdataWord, t.pecWord, t.statusWord) = (0x0000BE5A#32, 0x0000CECE#32, 0x00000002#32) := by decide
-- SHORT_READ, count 2
theorem test_readWord_short : (after (.readWord 0x07#8) (withDraws [0, 2])).statusWord = 0x00000030#32 := by decide
-- R40: the three codes of a line mode in LINES; R100: code 4 of BAD_ARG is test_setAddr_bad, 5 is test_illegal_step
theorem test_lines_codes :
    ({ parkedState with sclMode := .bus }.linesWord, parkedState.linesWord) = (0x00000004#32, 0x00000006#32) := by decide
set_option maxRecDepth 4000 in
theorem test_readWord_mismatch :
    let t := after (.readWord 0x07#8) { withDraws [0, 3, 0xE1, 0x3A, 0x00] with rdata := 0x1234#16 }
    (t.rdataWord, t.pecWord, t.statusWord) = (0x00001234#32, 0x000000F6#32, 0x00000020#32) := by decide
set_option maxRecDepth 4000 in
theorem test_writeWord_nak :
    let t := after (.writeWord 0x24#8 0xFFFF#16) (withDraws [3])
    (t.statusWord, t.crc) = (0x00000310#32, 0x0C#8) := by decide
set_option maxRecDepth 4000 in
theorem test_writeWord_trace :
    (after (.writeWord 0x24#8 0xF332#16) (withDraws [0])).trace =
      [.bmBegin 0x5A#7, .bmWrite 0x24#8, .bmWrite 0x32#8, .bmWrite 0xF3#8, .bmWrite 0x2C#8, .bmEnd true 0x00#8] := by
  decide
set_option maxRecDepth 4000 in
theorem test_sleep_nak_parks :
    let t := after .sleep (withDraws [2])
    (t.statusWord, t.linesWord, t.crc) = (0x00000214#32, 0x00000006#32, 0xE8#8) := by decide
set_option maxRecDepth 4000 in
theorem test_sleep_trace :
    (after .sleep (withDraws [0])).trace =
      [.bmBegin 0x5A#7, .bmWrite 0xFF#8, .bmWrite 0xE8#8, .bmEnd true 0x00#8, .gpio .scl .outputLow,
       .gpio .sda .input] := by decide
theorem test_wake_trace :
    (after .wake { parkedState with draws := [5], timing := ⟨33, 250, 2, 10, 10⟩ }).trace =
      [.bmEnd true 0x05#8, .gpio .scl .input, .gpio .sda .outputLow, .delay 33, .gpio .sda .input, .delay 250,
       .gpio .scl .outputLow, .delay 2, .gpio .scl .input, .bmBegin 0x5A#7] := by decide
theorem test_wake_end :
    let t := after .wake { parkedState with draws := [5] }
    (t.statusWord, t.linesWord) = (0x00000002#32, 0x00000000#32) := by decide

/-! ### Acceptance, faults and the host port (95_test_vectors.md sections 2.8 and 2.9) -/

theorem test_illegal_step :
    (stepped (State.reset.withFetchWord 32 0x40070001)).statusWord = 0x00000050#32 := by decide
theorem test_fetch_runs_wake : (stepped (State.reset.withFetchWord 32 0x70000000)).ok = true := by decide
theorem test_probe_parked :
    let t := after .probe parkedState
    (t.faults, t.trace) = ([.busWhileParked], []) := by decide
-- writing 0x30000000 during WAKE's Delay(250), which is STEP 5
theorem test_cmd_during_wake :
    (stepped (stepped (withProgram [cmdLine .wake, { act := .write 0 4 0x30000000#32, during := some 5 }]))).faults
      = [.cmdWhileBusy] := by decide
-- a read of STATUS while a command runs: BUSY = 1, OK = 0, ERR = 0
theorem test_status_read_during_wake :
    (stepped (stepped (withProgram [cmdLine .wake, { act := .read 4 4, during := some 5 }]))).hostLog
      = [.wrote 0 0x70000000#32, .gotWord 4 0x00000001#32] := by decide
theorem test_halfword_access :
    (stepped (withProgram [directive (.read 4 2)])).faults = [.hostAccess] := by decide
theorem test_unused_offset :
    (stepped (withProgram [directive (.read 0x18 4)])).hostLog = [.gotWord 0x18 0#32] := by decide
theorem test_offset_outside :
    (match step (withProgram [directive (.read 0x40 4)]) with
     | .fault .hostOffsetOutside => true | _ => false) = true := by decide
theorem test_opc : Phase.opc (.run .wake 3#4) = some 0x7#4 := by decide
-- R124: the log of EE_WRITE KE, 0xF332 keeps the host's EEPROM duties (95_test_vectors.md, program 2); each breach of a
-- step does not
theorem test_eeprom_duty :
    eepromDuty [.wrote 0 0x50240000#32, .ended true, .waited 10, .wrote 0 0x5024F332#32, .ended true, .waited 10]
      = true := by decide
theorem test_eeprom_no_erase : eepromDuty [.wrote 0 0x5024F332#32, .ended true, .waited 10] = false := by decide
theorem test_eeprom_last_wait :
    eepromDuty [.wrote 0 0x50240000#32, .ended true, .waited 10, .wrote 0 0x5024F332#32, .ended true, .waited 9]
      = false := by decide
-- programming 0x0000 owes both waits like any other value
theorem test_eeprom_zero_program :
    (eepromDuty [.wrote 0 0x50210000#32, .ended true, .wrote 0 0x50210000#32, .ended true],
     eepromDuty [.wrote 0 0x50210000#32, .ended true, .waited 10, .wrote 0 0x50210000#32, .ended true],
     eepromDuty [.wrote 0 0x50210000#32, .ended true, .waited 10, .wrote 0 0x50210000#32, .ended true, .waited 10])
      = (false, false, true) := by decide
-- R128: an erase that was NAKed is done again
theorem test_eeprom_erase_nak :
    (eepromDuty [.wrote 0 0x50240000#32, .ended false],
     eepromDuty [.wrote 0 0x50240000#32, .ended false, .waited 10, .wrote 0 0x5024F332#32, .ended true, .waited 10])
      = (true, false) := by decide
-- log entry 26: an erase before SET_ADDR does not count
theorem test_eeprom_set_addr :
    eepromDuty [.wrote 0 0x50240000#32, .ended true, .wrote 0 0x20000033#32, .ended true, .waited 10,
      .wrote 0 0x5024F332#32, .ended true, .waited 10] = false := by decide
-- the log of an erase, as the machine writes it
theorem test_eeprom_log :
    (stepped { withProgram [cmdLine (.writeWord 0x24#8 0x0000#16)] with draws := [1] }).hostLog
      = [.wrote 0 0x50240000#32, .ended false] := by decide
-- R78: the words of EE_WRITE KE, 0xF332 (95_test_vectors.md, program 2)
theorem test_eeWrite_words :
    (eeWrite Timing.default 0 DevReg.ke.byte 0xF332#16).map (·.act) =
      [.write 0 4 0x50240000#32, .ifFail 5, .waitMs 10, .write 0 4 0x5024F332#32, .waitMs 10] := by decide
theorem test_goodEnd_reset : State.reset.goodEnd = true := by decide

/-! ### Witnesses: the hypotheses of each statement are met -/

theorem witness_DecodeOfEncode : Instr.wf (.readWord 0xFF#8) = true := by decide
theorem witness_EncodeOfDecode : decode 0x5FFFFFFF#32 = .error .rsvNonzero ∧
    decode 0x50FFFFFF#32 = .ok (.writeWord 0xFF#8 0xFFFF#16) := by decide
theorem witness_CommandMapSelectsCommand :
    0x1000FFFF#32 &&& 0xFFFF0000#32 = 0x10000000#32 ∧ decode 0x1000FFFF#32 = .ok (.crcStep 0xFF#8 0xFF#8) := by decide
theorem witness_IllegalWordCompletes :
    (∀ r ∈ commandMap, 0x80000000#32 &&& r.mask ≠ r.value) ∧ State.reset.busy = false := by decide
theorem witness_PecLaws_linear : [0xB4#8, 0xFF#8].length = [0x00#8, 0x01#8].length := by decide
theorem witness_PecLaws_one_byte : (0x00#8 : Byte) ≠ 0x80#8 := by decide
theorem witness_CrcStepCompletes : parkedState.busy = false ∧ parkedState.hostWaits = true := by decide
theorem witness_SetAddrLoadsAddr_low :
    State.reset.busy = false ∧ State.reset.hostWaits = true ∧ 1 ≤ (0x01#8).toNat ∧ (0x01#8).toNat ≤ 127 := by decide
theorem witness_SetAddrLoadsAddr_high :
    parkedState.busy = false ∧ parkedState.hostWaits = true ∧ 1 ≤ (0x7F#8).toNat ∧ (0x7F#8).toNat ≤ 127 := by decide
theorem witness_SetAddrRejectsBadArg_zero :
    State.reset.busy = false ∧ State.reset.hostWaits = true ∧ ((0x00#8 : Byte) = 0x00#8 ∨ 0x80 ≤ (0x00#8).toNat) := by
  decide
theorem witness_SetAddrRejectsBadArg_high :
    State.reset.busy = false ∧ State.reset.hostWaits = true ∧ ((0x80#8 : Byte) = 0x00#8 ∨ 0x80 ≤ (0x80#8).toNat) := by
  decide
theorem witness_ProbeCompletes :
    (withDraws [0]).busy = false ∧ (withDraws [0]).parked = false ∧ (withDraws [0]).hostWaits = true ∧
    (withDraws [0]).drawAt 0 = 0#8 ∧ (withDraws [1]).drawAt 0 ≠ 0#8 := by decide
set_option maxRecDepth 4000 in
theorem witness_ReadWordSucceeds :
    let s := withDraws [0, 3, 0xE1, 0x3A, 0xF6]
    s.busy = false ∧ s.parked = false ∧ s.hostWaits = true ∧ s.drawAt 0 = 0#8 ∧ s.drawAt 1 = 3#8 ∧
    pec [s.addr.zeroExtend 8 <<< 1, 0x07#8, s.addr.zeroExtend 8 <<< 1 ||| 1#8, s.drawAt 2, s.drawAt 3] = s.drawAt 4 := by
  decide
theorem witness_ReadWordNak :
    let s := withDraws [2]
    s.busy = false ∧ s.parked = false ∧ s.hostWaits = true ∧ s.drawAt 0 ≠ 0#8 := by decide
theorem witness_ReadWordShort :
    let s := withDraws [0, 2]
    s.busy = false ∧ s.parked = false ∧ s.hostWaits = true ∧ s.drawAt 0 = 0#8 ∧ s.drawAt 1 ≠ 3#8 := by decide
set_option maxRecDepth 4000 in
theorem witness_ReadWordPecMismatch :
    let s := withDraws [0, 3, 0xE1, 0x3A, 0x00]
    s.busy = false ∧ s.parked = false ∧ s.hostWaits = true ∧ s.drawAt 0 = 0#8 ∧ s.drawAt 1 = 3#8 ∧
    pec [s.addr.zeroExtend 8 <<< 1, 0x07#8, s.addr.zeroExtend 8 <<< 1 ||| 1#8, s.drawAt 2, s.drawAt 3] ≠ s.drawAt 4 := by
  decide
theorem witness_WriteWordCompletes :
    State.reset.busy = false ∧ State.reset.parked = false ∧ State.reset.hostWaits = true := by decide
theorem witness_SleepParksAndCompletes :
    State.reset.busy = false ∧ State.reset.parked = false ∧ State.reset.hostWaits = true := by decide
theorem witness_WakeCompletes : parkedState.busy = false ∧ parkedState.hostWaits = true := by decide
theorem witness_WakeEdgeSequence :
    parkedState.busy = false ∧ parkedState.hostWaits = true ∧ parkedState.parked = true := by decide
theorem witness_OnlyWakeDelays_wake :
    State.reset.busy = false ∧ State.reset.hostWaits = true ∧ State.reset.timing.wf = true ∧
    State.reset.timing = Timing.default := by decide
theorem witness_OnlyWakeDelays_other : Instr.probe ≠ .wake ∧ ∃ t, exec .probe State.reset = .next t :=
  ⟨by decide, _, rfl⟩
theorem witness_BusCommandsMakeFrames :
    let s := withDraws [0, 3]
    s.busy = false ∧ s.parked = false ∧ s.hostWaits = true ∧ s.drawAt 0 = 0#8 ∧ s.drawAt 1 = 3#8 := by decide
theorem witness_BusCommandWhileParkedIsRecorded : parkedState.busy = false ∧ parkedState.parked = true := by decide
theorem witness_AcceptanceOrder_busy : busyState.busy = true := by decide
theorem witness_AcceptanceOrder_illegal :
    State.reset.busy = false ∧ decode 0x80000000#32 = .error .opUndefined := by decide
theorem witness_AcceptanceOrder_parked :
    parkedState.busy = false ∧ decode 0x60000000#32 = .ok .sleep ∧ parkedState.parked = true := by decide
theorem witness_AcceptanceOrder_runs :
    parkedState.busy = false ∧ decode 0x70000000#32 = .ok .wake ∧ parkedState.hostWaits = true := by decide
theorem witness_FaultedStateIsStuck :
    State.reset.timing.wf = true ∧ (State.reset.recordFault .hostAccess).faults ≠ [] := by decide
theorem witness_FaultStepPerformsNothing :
    ∃ t, step { parkedState with program := [cmdLine .probe] } = .next t ∧ t.faults ≠ [] := ⟨_, rfl, by decide⟩
theorem witness_IllFormedTimingIsRefused :
    ({ State.reset with timing := ⟨32, 250, 10, 10, 10⟩ } : State).timing.wakeSdaLow < 33 := by decide
theorem witness_ResetWhileBusyIsRefused : busyState.busy = true := by decide
theorem witness_ResetSetsEveryRegister :
    parkedState.busy = false ∧ ∃ t, hostAct .reset parkedState = .next t := ⟨by decide, _, rfl⟩
theorem witness_ResetSetsEveryRegister_waits :
    State.reset.timing.wf = true ∧ State.reset.faults = [] ∧ State.reset.busy = false ∧ State.reset.nextLine = none := by
  decide
theorem witness_LegalCommandsWhileParked :
    parkedState.busy = false ∧ parkedState.parked = true ∧ parkedState.faults = [] ∧
    (∃ t, exec .sleep parkedState = .next t) ∧ ∃ t, exec .wake parkedState = .next t :=
  ⟨by decide, by decide, by decide, ⟨_, rfl⟩, _, rfl⟩
theorem witness_GoodEndIsFinal : State.reset.timing.wf = true ∧ State.reset.goodEnd = true := by decide
theorem witness_HostAccessRules_unused_low : 0x14 < 0x18 ∧ 0x18 ≤ 0x3C ∧ 0x18 % 4 = 0 := by decide
theorem witness_HostAccessRules_unused_high : 0x14 < 0x3C ∧ 0x3C ≤ 0x3C ∧ 0x3C % 4 = 0 := by decide
theorem witness_HostAccessRules_write_low : 0x00 < 0x04 ∧ 0x04 ≤ 0x3C ∧ 0x04 % 4 = 0 := by decide
theorem witness_HostAccessRules_write_high : 0x00 < 0x3C ∧ 0x3C ≤ 0x3C ∧ 0x3C % 4 = 0 := by decide
theorem witness_HostAccessRules_malformed : (2 ≠ 4 ∨ 0x04 % 4 ≠ 0) ∧ (4 ≠ 4 ∨ 0x3F % 4 ≠ 0) := by decide
theorem witness_HostAccessRules_malformed_busy : busyState.busy = true ∧ (2 ≠ 4 ∨ 0x00 % 4 ≠ 0) := by decide
theorem witness_EepromDutyChecksSequence :
    (0x24#8 : Byte) = 0x20#8 ∨ (0x24#8 : Byte) = 0x21#8 ∨ (0x24#8 : Byte) = 0x24#8 ∨ (0x24#8 : Byte) = 0x2E#8 := by
  decide
theorem witness_IdleReadsReturnRegisters : State.reset.busy = false := by decide
theorem witness_BusyReadsAreUnspecified : busyState.busy = true := by decide
theorem witness_StepRunsDecodedCommand :
    let s := withProgram [cmdLine .probe]
    s.timing.wf = true ∧ s.faults = [] ∧ s.busy = false ∧
    s.program[s.hpc]? = some { act := .write 0x00 4 0x30000000#32, during := none } ∧
    decode 0x30000000#32 = .ok .probe := by decide
theorem witness_CommandRunsToItsEnd :
    State.reset.busy = false ∧ (usesBus .sleep = true → State.reset.parked = false) ∧
    ∃ t, exec .sleep State.reset = .next t := ⟨by decide, by decide, _, rfl⟩
theorem witness_EqualDrawsGiveEqualRuns :
    runsAgree State.reset { State.reset with lsb := 0xFF#8 } ∧
    ({ State.reset with lsb := 0xFF#8 } : State).timing = State.reset.timing ∧
    (∀ k, ({ State.reset with lsb := 0xFF#8 } : State).drawAt k = State.reset.drawAt k) ∧
    State.reset.hostWaits = true ∧ ({ State.reset with lsb := 0xFF#8 } : State).hostWaits = true :=
  ⟨by simp [runsAgree, sameRegisters], rfl, fun _ => rfl, by decide, by decide⟩
theorem witness_InvariantKeptByStep :
    (withProgram [cmdLine .sleep]).inv = true ∧ ∃ t, step (withProgram [cmdLine .sleep]) = .next t :=
  ⟨by decide, _, rfl⟩
theorem witness_TraceOnlyGrows : ∃ t, step (withProgram [cmdLine .sleep]) = .next t := ⟨_, rfl⟩
theorem witness_AnswersAreTheDraws : ∃ t, step (withProgram [cmdLine (.readWord 0x07#8)]) = .next t := ⟨_, rfl⟩
theorem witness_EventsAreAddressedToAddr : ∃ t, exec .wake State.reset = .next t := ⟨_, rfl⟩
theorem witness_OnlySetAddrWritesAddr :
    ∃ t, exec (.setAddr 0x33#8) State.reset = .next t ∧ t.addr ≠ State.reset.addr := ⟨_, rfl, by decide⟩
set_option maxRecDepth 4000 in
theorem witness_OnlyReadWordWritesRdata :
    ∃ t, exec (.readWord 0x07#8) (withDraws [0, 3, 0xE1, 0x3A, 0xF6]) = .next t ∧
      t.rdata ≠ (withDraws [0, 3, 0xE1, 0x3A, 0xF6]).rdata := ⟨_, rfl, by decide⟩
theorem witness_OnlySleepAndWakeMoveLines :
    Instr.probe ≠ .sleep ∧ Instr.probe ≠ .wake ∧ ∃ t, exec .probe State.reset = .next t :=
  ⟨by decide, by decide, _, rfl⟩
theorem witness_NoEventWhileParkedButWake :
    parkedState.parked = true ∧ Instr.setAddr 0x33#8 ≠ .wake ∧ ∃ t, exec (.setAddr 0x33#8) parkedState = .next t :=
  ⟨by decide, by decide, _, rfl⟩
theorem witness_CrcStepFrame : ∃ t, exec (.crcStep 0#8 1#8) State.reset = .next t := ⟨_, rfl⟩
theorem witness_SetAddrFrame : ∃ t, exec (.setAddr 0#8) State.reset = .next t := ⟨_, rfl⟩
theorem witness_ProbeFrame : ∃ t, exec .probe State.reset = .next t := ⟨_, rfl⟩
theorem witness_ReadWordFrame : ∃ t, exec (.readWord 0#8) (withDraws [1]) = .next t ∧ t.err = .nak :=
  ⟨_, rfl, by decide⟩
theorem witness_WriteWordFrame : ∃ t, exec (.writeWord 0#8 0#16) State.reset = .next t := ⟨_, rfl⟩
theorem witness_SleepFrame : ∃ t, exec .sleep State.reset = .next t := ⟨_, rfl⟩
theorem witness_WakeFrame : ∃ t, exec .wake State.reset = .next t := ⟨_, rfl⟩

end Sys2Proof.Tests
end

section
/-! SUPPORT. The bits and the fields of STATUS (10_state.md R27 to R33). -/

namespace Sys2Proof.Machine

variable (s : State)

/-- The four single bits of STATUS: BUSY, OK, PARKED and the reserved bit 3 (R27 to R30). -/
theorem State.statusWord_single_bits :
    s.statusWord.getLsbD 0 = s.busy ∧ s.statusWord.getLsbD 1 = s.ok ∧ s.statusWord.getLsbD 2 = s.parked ∧
      s.statusWord.getLsbD 3 = false := by
  simp only [State.statusWord, BitVec.getLsbD_append]
  simp

/-- Which field holds a bit of STATUS above the four single bits (R31 to R33). -/
theorem State.statusWord_getLsbD_four_add (i : Nat) :
    s.statusWord.getLsbD (4 + i) =
      if i < 4 then s.err.code.getLsbD i else if i < 12 then s.bmStatus.getLsbD (i - 4) else false := by
  obtain ⟨h0, h1, h2, h3⟩ : ¬ 4 + i < 1 ∧ ¬ 4 + i - 1 < 1 ∧ ¬ 4 + i - 1 - 1 < 1 ∧ ¬ 4 + i - 1 - 1 - 1 < 1 := by
    omega
  have herr : 4 + i - 1 - 1 - 1 - 1 = i := by omega
  have hbm : i - 4 < 8 ↔ i < 12 := by omega
  simp only [State.statusWord, BitVec.getLsbD_append, h0, h1, h2, h3, herr, hbm, if_false,
    BitVec.getLsbD_zero]

theorem State.statusWord_err : s.statusWord.extractLsb' 4 4 = s.err.code := by
  apply BitVec.eq_of_getLsbD_eq
  intro i hi
  simp [State.statusWord_getLsbD_four_add, hi]

theorem State.statusWord_bmStatus : s.statusWord.extractLsb' 8 8 = s.bmStatus := by
  apply BitVec.eq_of_getLsbD_eq
  intro i hi
  have hpos : 8 + i = 4 + (4 + i) := by omega
  have hin : 4 + i < 12 := by omega
  simp [hpos, State.statusWord_getLsbD_four_add, hi, hin]

theorem State.statusWord_reserved : s.statusWord.extractLsb' 16 16 = 0#16 := by
  apply BitVec.eq_of_getLsbD_eq
  intro i _
  have hpos : 16 + i = 4 + (12 + i) := by omega
  have hout : ¬ 12 + i < 4 := by omega
  simp [hpos, State.statusWord_getLsbD_four_add, hout]

end Sys2Proof.Machine
end

section
/-! SUPPORT. What one whole-word read of the host does (10_state.md R24, R25, R38). -/

namespace Sys2Proof.Machine

/-- A whole aligned word inside the host register space passes the access check (R25, R46). -/
theorem hostAccess_word {off : Nat} (hle : off ≤ 0x3C) (halign : off % 4 = 0) (s : State)
    (k : Host.Outcome State Fault Refusal) : hostAccess off 4 s k = k := by
  simp [hostAccess, wholeWord, hle, halign]

theorem hostAct_read_word {off : Nat} (hle : off ≤ 0x3C) (halign : off % 4 = 0) (s : State) :
    hostAct (.read off 4) s = .next (afterRead off s) :=
  hostAccess_word hle halign s _

theorem registerWord_status (s : State) : registerWord 0x04 s = s.statusWord := rfl

theorem unspecifiedWhileBusy_iff (off : Nat) :
    unspecifiedWhileBusy off = true ↔ off = 0x08 ∨ off = 0x0C ∨ off = 0x10 ∨ off = 0x14 := by
  simp [unspecifiedWhileBusy, or_assoc]

/-- A read that R38 leaves free takes the next free value. -/
theorem afterRead_of_free {off : Nat} {s : State} (h : (s.busy && unspecifiedWhileBusy off) = true) :
    afterRead off s =
      { s with hostLog := s.hostLog ++ [.gotWord off (Config.freeRead s.freeReadCount)]
               freeReadCount := s.freeReadCount + 1 } := by
  simp only [afterRead, readValue, h, if_true]

/-- Any other read gives the register, and takes no free value. -/
theorem afterRead_of_fixed {off : Nat} {s : State} (h : (s.busy && unspecifiedWhileBusy off) = false) :
    afterRead off s = { s with hostLog := s.hostLog ++ [.gotWord off (registerWord off s)] } := by
  simp [afterRead, readValue, h]

end Sys2Proof.Machine
end

section
/-! The statements of 10_state.md on STATUS and on reads while BUSY = 1 (O30, O31, O34). -/

namespace Sys2Proof.Machine

/-- Settles O30: the reserved bits are the zero fields of the packing. -/
theorem statusReservedBitsReadZero : Obligations.StatusReservedBitsReadZero := by
  intro s
  obtain ⟨_, _, _, hbit3⟩ := s.statusWord_single_bits
  exact ⟨hbit3, s.statusWord_reserved⟩

/-- Settles O31, field by field; the codes are those of `ErrKind.code`. -/
theorem statusWordLayout : Obligations.StatusWordLayout := by
  refine ⟨fun s => ?_, rfl, rfl, rfl, rfl, rfl, rfl⟩
  obtain ⟨hbusy, hok, hparked, hbit3⟩ := s.statusWord_single_bits
  exact ⟨hbit3, s.statusWord_reserved, hbusy, hok, hparked, s.statusWord_err, s.statusWord_bmStatus⟩

/-- Settles O34: STATUS is not among the registers that R38 leaves free, and the other four are. -/
theorem busyReadsAreUnspecified : Obligations.BusyReadsAreUnspecified := by
  intro s hbusy
  obtain ⟨hbit0, _⟩ := s.statusWord_single_bits
  refine ⟨hbit0.trans hbusy, ?_, ?_⟩
  · have hfixed : (s.busy && unspecifiedWhileBusy 0x04) = false := by simp [unspecifiedWhileBusy]
    rw [hostAct_read_word (by decide) (by decide), afterRead_of_fixed hfixed, registerWord_status]
  · intro off hoff
    have hfree : (s.busy && unspecifiedWhileBusy off) = true := by
      simp only [hbusy, (unspecifiedWhileBusy_iff off).mpr hoff, Bool.and_true]
    rw [hostAct_read_word (by omega) (by omega), afterRead_of_free hfree]

end Sys2Proof.Machine
end

section
/-! SUPPORT. The fields of a command word decide it, and which fields a row of the command map fixes (30_encoding.md
R66, R69, R70). -/

namespace Sys2Proof

/-- Two words agree on a range of bits exactly if they agree on its upper and on its lower part. -/
theorem extractLsb'_add_eq_iff {w : Nat} (x y : BitVec w) (start hi lo : Nat) :
    x.extractLsb' start (hi + lo) = y.extractLsb' start (hi + lo) ↔
      x.extractLsb' (start + lo) hi = y.extractLsb' (start + lo) hi ∧
        x.extractLsb' start lo = y.extractLsb' start lo := by
  constructor
  · intro h
    have bit (i : Nat) (hi' : i < hi + lo) : x.getLsbD (start + i) = y.getLsbD (start + i) := by
      simpa [BitVec.getLsbD_extractLsb', hi'] using congrArg (·.getLsbD i) h
    constructor <;> apply BitVec.eq_of_getLsbD_eq <;> intro i hi'
    · simpa [hi', Nat.add_assoc] using bit (lo + i) (by omega)
    · simpa [hi'] using bit i (by omega)
  · rintro ⟨hhi, hlo⟩
    rw [← BitVec.extractLsb'_append_extractLsb'_eq_extractLsb' rfl, hhi, hlo,
      BitVec.extractLsb'_append_extractLsb'_eq_extractLsb' rfl]

/-- A range of bits is 0 exactly if its upper and its lower part are. -/
theorem extractLsb'_add_eq_zero_iff {w : Nat} (x : BitVec w) (start hi lo : Nat) :
    x.extractLsb' start (hi + lo) = 0#(hi + lo) ↔
      x.extractLsb' (start + lo) hi = 0#hi ∧ x.extractLsb' start lo = 0#lo := by
  simpa using extractLsb'_add_eq_iff x 0#w start hi lo

/-- Two words are equal exactly if their five fields are (R66). -/
theorem word_ext_iff {c d : Word32} :
    c = d ↔ opField c = opField d ∧ rsvField c = rsvField d ∧ regField c = regField d ∧ hiField c = hiField d ∧
      loField c = loField d := by
  have whole : c = d ↔ c.extractLsb' 0 (4 + (4 + (8 + (8 + 8)))) = d.extractLsb' 0 (4 + (4 + (8 + (8 + 8)))) := by
    simp
  rw [whole]
  simp only [extractLsb'_add_eq_iff]
  rfl

@[simp] theorem opField_and (c m : Word32) : opField (c &&& m) = opField c &&& opField m := BitVec.extractLsb'_and
@[simp] theorem rsvField_and (c m : Word32) : rsvField (c &&& m) = rsvField c &&& rsvField m := BitVec.extractLsb'_and
@[simp] theorem regField_and (c m : Word32) : regField (c &&& m) = regField c &&& regField m := BitVec.extractLsb'_and
@[simp] theorem hiField_and (c m : Word32) : hiField (c &&& m) = hiField c &&& hiField m := BitVec.extractLsb'_and
@[simp] theorem loField_and (c m : Word32) : loField (c &&& m) = loField c &&& loField m := BitVec.extractLsb'_and

/-- What the row of a command fixes in a word: OP, RSV = 0, and 0 in every field the OP does not use (R69, R70). -/
def Instr.fixesFields (c : Word32) : Instr → Prop
  | .crcStep _ _ => opField c = 0x1#4 ∧ rsvField c = 0#4 ∧ regField c = 0#8
  | .setAddr _ => opField c = 0x2#4 ∧ rsvField c = 0#4 ∧ regField c = 0#8 ∧ hiField c = 0#8
  | .probe => opField c = 0x3#4 ∧ rsvField c = 0#4 ∧ regField c = 0#8 ∧ hiField c = 0#8 ∧ loField c = 0#8
  | .readWord _ => opField c = 0x4#4 ∧ rsvField c = 0#4 ∧ hiField c = 0#8 ∧ loField c = 0#8
  | .writeWord _ _ => opField c = 0x5#4 ∧ rsvField c = 0#4
  | .sleep => opField c = 0x6#4 ∧ rsvField c = 0#4 ∧ regField c = 0#8 ∧ hiField c = 0#8 ∧ loField c = 0#8
  | .wake => opField c = 0x7#4 ∧ rsvField c = 0#4 ∧ regField c = 0#8 ∧ hiField c = 0#8 ∧ loField c = 0#8

/-- The mask of a row covers exactly the fields the row fixes. -/
theorem row_matches_iff (c : Word32) (i : Instr) : c &&& i.row.mask = i.row.value ↔ i.fixesFields c := by
  have full4 (x : BitVec 4) : x &&& 15#4 = x := BitVec.and_allOnes
  have full8 (x : Byte) : x &&& 255#8 = x := BitVec.and_allOnes
  cases i <;> simp only [Instr.row, Instr.fixesFields] <;>
    rw [word_ext_iff, opField_and, rsvField_and, regField_and, hiField_and, loField_and] <;>
    simp [opField, rsvField, regField, hiField, loField, full4, full8]

/-- The operands of a command replaced by the fields of a word that the table names for them (R70). -/
def Instr.withOperands (c : Word32) : Instr → Instr
  | .crcStep _ _ => .crcStep (hiField c) (loField c)
  | .setAddr _ => .setAddr (loField c)
  | .probe => .probe
  | .readWord _ => .readWord (regField c)
  | .writeWord _ _ => .writeWord (regField c) (wdataField c)
  | .sleep => .sleep
  | .wake => .wake

@[simp] theorem row_withOperands (c : Word32) (i : Instr) : (i.withOperands c).row = i.row := by cases i <;> rfl

@[simp] theorem withOperands_withOperands (c : Word32) (i : Instr) :
    (i.withOperands c).withOperands c = i.withOperands c := by cases i <;> rfl

@[simp] theorem needZero_eq_ok_iff {f : Byte} {e : IllegalWord} {rest : Except IllegalWord Instr} {i : Instr} :
    needZero f e rest = .ok i ↔ f = 0#8 ∧ rest = .ok i := by
  unfold needZero; split <;> simp [*]

/-- A word whose fixed fields are those of a command's row decodes to that row's command, the operands being the
word's (R70). -/
theorem decode_of_fixesFields {c : Word32} {i : Instr} (h : i.fixesFields c) : decode c = .ok (i.withOperands c) := by
  cases i <;> simp_all [Instr.fixesFields, Instr.withOperands, decode, decodeOp]

/-- A word that decodes to a command has the fixed fields of its row, and the command has the word's operands. -/
theorem fixesFields_of_decode {c : Word32} {i : Instr} (h : decode c = .ok i) :
    i.fixesFields c ∧ i.withOperands c = i := by
  unfold decode decodeOp at h
  split_ifs at h with hrsv hop hop hop hop hop hop hop <;>
      simp only [needZero_eq_ok_iff, Except.ok.injEq] at h
  · obtain ⟨hreg, rfl⟩ := h
    exact ⟨⟨hop, hrsv, hreg⟩, rfl⟩
  · obtain ⟨hreg, hhi, rfl⟩ := h
    exact ⟨⟨hop, hrsv, hreg, hhi⟩, rfl⟩
  · obtain ⟨hreg, hhi, hlo, rfl⟩ := h
    exact ⟨⟨hop, hrsv, hreg, hhi, hlo⟩, rfl⟩
  · obtain ⟨hhi, hlo, rfl⟩ := h
    exact ⟨⟨hop, hrsv, hhi, hlo⟩, rfl⟩
  · subst h
    exact ⟨⟨hop, hrsv⟩, rfl⟩
  · obtain ⟨hreg, hhi, hlo, rfl⟩ := h
    exact ⟨⟨hop, hrsv, hreg, hhi, hlo⟩, rfl⟩
  · obtain ⟨hreg, hhi, hlo, rfl⟩ := h
    exact ⟨⟨hop, hrsv, hreg, hhi, hlo⟩, rfl⟩

/-- The decoder follows the command map: a word is a command exactly if it matches the command's row and has its
operands (R70). -/
theorem decode_eq_ok_iff {c : Word32} {i : Instr} :
    decode c = .ok i ↔ c &&& i.row.mask = i.row.value ∧ i.withOperands c = i := by
  rw [row_matches_iff]
  constructor
  · exact fixesFields_of_decode
  · rintro ⟨hfields, hops⟩
    rw [decode_of_fixesFields hfields, hops]

theorem mem_commandMap_iff {r : CmdRow} : r ∈ commandMap ↔ ∃ i : Instr, i.row = r := by
  constructor
  · intro hr
    simp only [commandMap, List.mem_cons, List.not_mem_nil, or_false] at hr
    rcases hr with rfl | rfl | rfl | rfl | rfl | rfl | rfl <;> exact ⟨_, rfl⟩
  · rintro ⟨i, rfl⟩
    cases i <;> simp [commandMap, Instr.row]

/-- Every mask covers OP, so a word has the OP of a row it matches (R70). -/
theorem opField_of_matches {c : Word32} {r : CmdRow} (hr : r ∈ commandMap) (h : c &&& r.mask = r.value) :
    opField c = opField r.value := by
  have hmask : ∀ r ∈ commandMap, opField r.mask = BitVec.allOnes 4 := by decide
  rw [← h, opField_and, hmask r hr, BitVec.and_allOnes]

/-- At most one row matches a word, as every OP differs (R70). -/
theorem row_unique {c : Word32} {r r' : CmdRow} (hr : r ∈ commandMap) (hr' : r' ∈ commandMap)
    (h : c &&& r.mask = r.value) (h' : c &&& r'.mask = r'.value) : r = r' := by
  have op_injective : ∀ r ∈ commandMap, ∀ r' ∈ commandMap, opField r.value = opField r'.value → r = r' := by decide
  exact op_injective r hr r' hr' ((opField_of_matches hr h).symm.trans (opField_of_matches hr' h'))

/-- No row matches a word exactly if R71 lists it: OP undefined, RSV not 0, or a field not 0 that the OP does not use. -/
theorem no_row_matches_iff (c : Word32) :
    (∀ r ∈ commandMap, c &&& r.mask ≠ r.value) ↔
      opField c = 0x0#4 ∨ 8 ≤ (opField c).toNat ∨ rsvField c ≠ 0#4 ∨
      (opField c = 0x1#4 ∧ regField c ≠ 0#8) ∨
      (opField c = 0x2#4 ∧ ¬ (regField c = 0#8 ∧ hiField c = 0#8)) ∨
      ((opField c = 0x3#4 ∨ opField c = 0x6#4 ∨ opField c = 0x7#4) ∧
        ¬ (regField c = 0#8 ∧ hiField c = 0#8 ∧ loField c = 0#8)) ∨
      (opField c = 0x4#4 ∧ ¬ (hiField c = 0#8 ∧ loField c = 0#8)) := by
  have op_cases : ∀ op : BitVec 4, op = 0#4 ∨ 8 ≤ op.toNat ∨ op = 1#4 ∨ op = 2#4 ∨ op = 3#4 ∨ op = 4#4 ∨ op = 5#4 ∨
      op = 6#4 ∨ op = 7#4 := by decide
  have undefined : ∀ op : BitVec 4, 8 ≤ op.toNat → op ≠ 1#4 ∧ op ≠ 2#4 ∧ op ≠ 3#4 ∧ op ≠ 4#4 ∧ op ≠ 5#4 ∧
      op ≠ 6#4 ∧ op ≠ 7#4 := by decide
  simp only [commandMap, List.forall_mem_cons, List.not_mem_nil, ne_eq, row_matches_iff, Instr.fixesFields]
  rcases op_cases (opField c) with h | h | h | h | h | h | h | h | h
  · simp [h]
  · simp [h, undefined _ h]
  all_goals simp [h, imp_iff_not_or]

/-- A word that matches no row decodes to no command (R71). -/
theorem decode_of_no_row {c : Word32} (h : ∀ r ∈ commandMap, c &&& r.mask ≠ r.value) : ∃ e, decode c = .error e := by
  cases hdec : decode c with
  | error e => exact ⟨e, rfl⟩
  | ok i => exact absurd (decode_eq_ok_iff.mp hdec).1 (h _ (mem_commandMap_iff.mpr ⟨i, rfl⟩))

end Sys2Proof
end

section
/-! The statements of 30_encoding.md on the command map (O3, O4). -/

namespace Sys2Proof.Machine

/-- Settles O3: OP tells the rows apart, and `decode_eq_ok_iff` gives the rest. -/
theorem commandMapSelectsCommand : Obligations.CommandMapSelectsCommand := by
  refine ⟨rfl, fun c => ⟨fun r hr r' hr' => row_unique hr hr', fun r hr hmatch => ?_, fun i hdec => ?_⟩⟩
  · obtain ⟨i, rfl⟩ := mem_commandMap_iff.mp hr
    exact ⟨i.withOperands c, decode_eq_ok_iff.mpr ⟨by simpa using hmatch, by simp⟩, by simp⟩
  · obtain ⟨hmatch, hops⟩ := decode_eq_ok_iff.mp hdec
    refine ⟨hmatch, ?_⟩
    rw [← hops]
    cases i with
    | crcStep | writeWord => exact ⟨rfl, rfl⟩
    | setAddr | readWord => rfl
    | probe | sleep | wake => trivial

/-- Settles O4: the list of R71 speaks of the fields the rows fix, and an illegal word completes at once (R102). -/
theorem illegalWordCompletes : Obligations.IllegalWordCompletes := by
  refine fun c => ⟨?_, fun hrow s hbusy => ?_⟩
  · rw [no_row_matches_iff]
    have regHi : c.extractLsb' 8 16 = 0#16 ↔ regField c = 0#8 ∧ hiField c = 0#8 := extractLsb'_add_eq_zero_iff c 8 8 8
    have hiLo : c.extractLsb' 0 16 = 0#16 ↔ hiField c = 0#8 ∧ loField c = 0#8 := extractLsb'_add_eq_zero_iff c 0 8 8
    have regHiLo : c.extractLsb' 0 24 = 0#24 ↔ regField c = 0#8 ∧ hiField c = 0#8 ∧ loField c = 0#8 :=
      (extractLsb'_add_eq_zero_iff c 0 8 16).trans (and_congr_right fun _ => hiLo)
    rw [ne_eq (c.extractLsb' 8 16), ne_eq (c.extractLsb' 0 16), ne_eq (c.extractLsb' 0 24), regHi, hiLo, regHiLo]
    rfl
  · obtain ⟨e, hdec⟩ := decode_of_no_row hrow
    rw [writeCmd, hdec]
    exact congrArg _ (illegalWord_of_not_busy hbusy)

end Sys2Proof.Machine
end

section
/-! SUPPORT. How far the run of a command has come, and one rule per action for how it goes on (10_state.md R39,
20_memory.md R59, R60). -/

namespace Sys2Proof.Machine

/-- The action leaves the command running and the host and ADDR as they are, adds the given events, and takes the next
`k` answers. -/
structure GoesOn (act : SeqAct) (s : State) (new : List Event) (k : Nat) : Prop where
  phase : (act s).phase = s.phase
  program : (act s).program = s.program
  hpc : (act s).hpc = s.hpc
  addr : (act s).addr = s.addr
  trace : (act s).trace = s.trace ++ new
  answers : ∀ j, (act s).drawAt j = s.drawAt (k + j)

/-- The command `i`, started from `s₀`, runs up to STEP `n` without the host acting; so far it has made the events `es`
and taken `k` answers. -/
def Reaches (s₀ : State) (i : Instr) (n : Nat) (es : List Event) (k : Nat) : Prop :=
  ∃ s, exec i s₀ = .next (runSteps (stepsOf i) (maxSteps - n) s) ∧ s.phase = .run i (BitVec.ofNat 4 n) ∧
    s.hostWaits = true ∧ s.addr = s₀.addr ∧ s.trace = s₀.trace ++ es ∧ ∀ j, s.drawAt j = s₀.drawAt (k + j)

variable {s₀ s : State} {i : Instr} {n k : Nat} {es : List Event}

theorem length_stepsOf_le (i : Instr) : (stepsOf i).length ≤ maxSteps := by
  cases i <;> exact Nat.le_of_ble_eq_true rfl

/-- An accepted command begins at STEP 0 (R99). -/
theorem Reaches.start (i : Instr) (hbusy : s₀.busy = false) (hparked : s₀.parked = false)
    (hwaits : s₀.hostWaits = true) : Reaches s₀ i 0 [] 0 := by
  obtain ⟨t, ht⟩ := exec_isNext i s₀
  rcases exec_cases ht with ⟨h, _⟩ | ⟨_, _, h, _⟩ | ⟨_, _, rfl⟩
  · simp [hbusy] at h
  · simp [hparked] at h
  · refine ⟨_, ht, rfl, hostWaits_enter i hwaits, rfl, by simp, fun j => ?_⟩
    rw [Nat.zero_add]
    exact State.drawAt_congr rfl rfl j

/-- The action at STEP `n` is carried out: one unit of the fuel is used, and STEP goes up. -/
theorem runSteps_at {act : SeqAct} (hwaits : s.hostWaits = true) (hphase : s.phase = .run i (BitVec.ofNat 4 n))
    (hact : (stepsOf i)[n]? = some act) :
    runSteps (stepsOf i) (maxSteps - n) s = runSteps (stepsOf i) (maxSteps - (n + 1)) (act s).bump := by
  obtain ⟨hlength, -⟩ := List.getElem?_eq_some_iff.mp hact
  have hn : n < 16 := Nat.lt_of_lt_of_le hlength (length_stepsOf_le i)
  have hindex : (BitVec.ofNat 4 n).toNat = n := by simpa using hn
  have hfuel : maxSteps - n = maxSteps - (n + 1) + 1 := by simp only [maxSteps]; omega
  rw [hfuel, runSteps_step _ _ hwaits hphase (hindex.symm ▸ hact)]

/-- The rule of every action that does not end the command. -/
theorem Reaches.next {act : SeqAct} {new : List Event} {d : Nat} (h : Reaches s₀ i n es k)
    (hact : (stepsOf i)[n]? = some act)
    (goes : ∀ s, s.addr = s₀.addr → s.drawAt 0 = s₀.drawAt k → GoesOn act s new d) :
    Reaches s₀ i (n + 1) (es ++ new) (k + d) := by
  obtain ⟨s, hexec, hphase, hwaits, haddr, htrace, hanswers⟩ := h
  have g := goes s haddr (hanswers 0)
  refine ⟨(act s).bump, ?_, ?_, ?_, g.addr.trans haddr, ?_, fun j => ?_⟩
  · rw [hexec, runSteps_at hwaits hphase hact]
  · simp [g.phase, hphase, Phase.next, BitVec.ofNat_add]
  · exact (hostWaits_congr g.program g.hpc).trans hwaits
  · rw [State.bump_trace, g.trace, htrace, List.append_assoc]
  · calc (act s).bump.drawAt j = (act s).drawAt j := State.drawAt_congr rfl rfl j
      _ = s₀.drawAt (k + d + j) := by rw [g.answers, hanswers, Nat.add_assoc]

/-- The rule of the action that ends the command. -/
theorem Reaches.ends {act : SeqAct} {new : List Event} (h : Reaches s₀ i n es k)
    (hact : (stepsOf i)[n]? = some act) (hidle : ∀ s, (act s).phase = .idle)
    (htrace : ∀ s, s.drawAt 0 = s₀.drawAt k → (act s).trace = s.trace ++ new) :
    ∃ t, exec i s₀ = .next t ∧ t.trace = s₀.trace ++ (es ++ new) := by
  obtain ⟨s, hexec, hphase, hwaits, -, hsofar, hanswers⟩ := h
  have hover : (act s).bump.phase = .idle := by simp [hidle, Phase.next]
  refine ⟨(act s).bump, ?_, ?_⟩
  · rw [hexec, runSteps_at hwaits hphase hact, runSteps_of_idle _ _ hover]
  · rw [State.bump_trace, htrace s (hanswers 0), hsofar, List.append_assoc]

/-! ### The actions that go on -/

/-- An action that takes no answer leaves the answers to come as they are. -/
theorem answers_of_none_taken {t : State} (hdraws : t.draws = s.draws) (hcount : t.drawCount = s.drawCount) (j : Nat) :
    t.drawAt j = s.drawAt (0 + j) := by
  rw [Nat.zero_add]
  exact State.drawAt_congr hdraws hcount j

/-- An action that takes one answer leaves the ones after it. -/
theorem answers_of_one_taken {t : State} (hdraws : t.draws = s.draws.tail) (hcount : t.drawCount = s.drawCount + 1)
    (j : Nat) : t.drawAt j = s.drawAt (1 + j) :=
  State.drawAt_of_drop (by simpa using hdraws) hcount j

theorem bmBegin_goesOn {a : Addr7} (ha : s.addr = a) : GoesOn bmBegin s [.bmBegin a] 0 :=
  ⟨rfl, rfl, rfl, rfl, by rw [bmBegin_eq, ha], answers_of_none_taken rfl rfl⟩

/-- Also for a byte that the action works out from the state. -/
theorem bmWrite_goesOn {b : Byte} {f : State → Byte} (hb : f s = b) :
    GoesOn (fun s => bmWrite (f s) s) s [.bmWrite b] 0 :=
  ⟨rfl, rfl, rfl, rfl, by rw [bmWrite_eq, hb], answers_of_none_taken rfl rfl⟩

theorem setCrc_goesOn (f : State → Byte) : GoesOn (fun s => { s with crc := f s }) s [] 0 :=
  ⟨rfl, rfl, rfl, rfl, (List.append_nil _).symm, answers_of_none_taken rfl rfl⟩

theorem gpio_goesOn (line : Line) (mode : GpioMode) : GoesOn (gpio line mode) s [.gpio line mode] 0 :=
  ⟨rfl, rfl, rfl, rfl, rfl, answers_of_none_taken rfl rfl⟩

theorem bmEndRecorded_goesOn (stop : Bool) {status : Byte} (hd : s.drawAt 0 = status) :
    GoesOn (bmEndRecorded stop) s [.bmEnd stop status] 1 :=
  ⟨rfl, rfl, rfl, rfl, by rw [bmEndRecorded_eq, hd], answers_of_one_taken rfl rfl⟩

theorem readSelect_goesOn (hd : s.drawAt 0 = 0#8) : GoesOn readSelect s [.bmEnd false 0#8] 1 := by
  have hsame : readSelect s = bmEndRecorded false s := by rw [readSelect_eq, if_pos hd]
  obtain ⟨hphase, hprogram, hhpc, haddr, htrace, hanswers⟩ := bmEndRecorded_goesOn false hd
  constructor <;> rwa [hsame]

theorem readRequest_goesOn {a : Addr7} (ha : s.addr = a) (hd : s.drawAt 0 = 3#8) :
    GoesOn readRequest s [.bmRequest a 3#8 3#8] 1 := by
  have hsame : readRequest s = bmRequest s := by rw [readRequest_eq, if_pos hd]
  constructor <;> rw [hsame]
  case trace => rw [bmRequest_eq, ha, hd]; rfl
  case answers => exact answers_of_one_taken rfl rfl
  all_goals rfl

theorem readLsb_goesOn {b : Byte} (hd : s.drawAt 0 = b) : GoesOn readLsb s [.bmRead b] 1 :=
  ⟨rfl, rfl, rfl, rfl, by rw [readLsb_eq, hd], answers_of_one_taken rfl rfl⟩

theorem readMsb_goesOn {b : Byte} (hd : s.drawAt 0 = b) : GoesOn readMsb s [.bmRead b] 1 :=
  ⟨rfl, rfl, rfl, rfl, by rw [readMsb_eq, hd], answers_of_one_taken rfl rfl⟩

theorem readPec_goesOn {b : Byte} (hd : s.drawAt 0 = b) : GoesOn readPec s [.bmRead b] 1 :=
  ⟨rfl, rfl, rfl, rfl, by rw [readPec_eq, hd], answers_of_one_taken rfl rfl⟩

/-! ### The actions that end a command -/

theorem finalEnd_phase (s : State) : (finalEnd s).phase = .idle := by rw [finalEnd_eq]

theorem finalEnd_trace {status : Byte} (hd : s.drawAt 0 = status) :
    (finalEnd s).trace = s.trace ++ [.bmEnd true status] := by
  rw [finalEnd_eq, ← hd]

theorem readCheck_phase (reg : Byte) (s : State) : (readCheck reg s).phase = .idle := by
  rw [readCheck_eq]; split <;> rfl

theorem readCheck_trace (reg : Byte) (s : State) : (readCheck reg s).trace = s.trace ++ [] := by
  rw [readCheck_eq, List.append_nil]; split <;> rfl

theorem sleepPark_phase (s : State) : (sleepPark s).phase = .idle := by rw [sleepPark_eq]

theorem sleepPark_trace (s : State) : (sleepPark s).trace = s.trace ++ [.gpio .sda .input] := by rw [sleepPark_eq]

end Sys2Proof.Machine
end

section
/-! SUPPORT. The port events of the bus commands (41_smbus_codec.md R90 to R92, 42_sleep_wake.md R94). -/

namespace Sys2Proof.Machine

variable {s : State}

theorem exec_probe_events (hbusy : s.busy = false) (hparked : s.parked = false) (hwaits : s.hostWaits = true) :
    ∃ t, exec .probe s = .next t ∧ t.trace = s.trace ++ [.bmBegin s.addr, .bmEnd true (s.drawAt 0)] :=
  Reaches.start .probe hbusy hparked hwaits
    |>.next rfl (fun _ ha _ => bmBegin_goesOn ha)
    |>.ends rfl finalEnd_phase (fun _ hd => finalEnd_trace hd)

/-- Of a READ_WORD whose address phase is ACKed and whose count is 3, whatever the PEC received is. -/
theorem exec_readWord_events (reg : Byte) (hbusy : s.busy = false) (hparked : s.parked = false)
    (hwaits : s.hostWaits = true) (hstatus : s.drawAt 0 = 0#8) (hcount : s.drawAt 1 = 3#8) :
    ∃ t, exec (.readWord reg) s = .next t ∧
      t.trace = s.trace ++ [.bmBegin s.addr, .bmWrite reg, .bmEnd false 0#8, .bmRequest s.addr 3#8 3#8,
        .bmRead (s.drawAt 2), .bmRead (s.drawAt 3), .bmRead (s.drawAt 4)] :=
  Reaches.start (.readWord reg) hbusy hparked hwaits
    |>.next rfl (fun _ ha _ => bmBegin_goesOn ha)
    |>.next rfl (fun _ _ _ => bmWrite_goesOn rfl)
    |>.next rfl (fun _ _ hd => readSelect_goesOn (hd.trans hstatus))
    |>.next rfl (fun _ ha hd => readRequest_goesOn ha (hd.trans hcount))
    |>.next rfl (fun _ _ hd => readLsb_goesOn hd)
    |>.next rfl (fun _ _ hd => readMsb_goesOn hd)
    |>.next rfl (fun _ _ hd => readPec_goesOn hd)
    |>.ends rfl (readCheck_phase reg) (fun s _ => readCheck_trace reg s)

theorem exec_writeWord_events (reg : Byte) (w : Word16) (hbusy : s.busy = false) (hparked : s.parked = false)
    (hwaits : s.hostWaits = true) :
    ∃ t, exec (.writeWord reg w) s = .next t ∧
      t.trace = s.trace ++ [.bmBegin s.addr, .bmWrite reg, .bmWrite (lsbOf w), .bmWrite (msbOf w),
        .bmWrite (pec (writeStream s.addr reg w)), .bmEnd true (s.drawAt 0)] :=
  Reaches.start (.writeWord reg w) hbusy hparked hwaits
    |>.next rfl (fun _ _ _ => setCrc_goesOn (writePec reg w))
    |>.next rfl (fun _ ha _ => bmBegin_goesOn ha)
    |>.next rfl (fun _ _ _ => bmWrite_goesOn rfl)
    |>.next rfl (fun _ _ _ => bmWrite_goesOn rfl)
    |>.next rfl (fun _ _ _ => bmWrite_goesOn rfl)
    |>.next rfl (fun _ ha _ => bmWrite_goesOn (congrArg (fun a => pec (writeStream a reg w)) ha))
    |>.ends rfl finalEnd_phase (fun _ hd => finalEnd_trace hd)

theorem exec_sleep_events (hbusy : s.busy = false) (hparked : s.parked = false) (hwaits : s.hostWaits = true) :
    ∃ t, exec .sleep s = .next t ∧
      t.trace = s.trace ++ [.bmBegin s.addr, .bmWrite Config.sleepCmd, .bmWrite (pec (sleepStream s.addr)),
        .bmEnd true (s.drawAt 0), .gpio .scl .outputLow, .gpio .sda .input] :=
  Reaches.start .sleep hbusy hparked hwaits
    |>.next rfl (fun _ _ _ => setCrc_goesOn sleepPec)
    |>.next rfl (fun _ ha _ => bmBegin_goesOn ha)
    |>.next rfl (fun _ _ _ => bmWrite_goesOn rfl)
    |>.next rfl (fun _ ha _ => bmWrite_goesOn (congrArg (fun a => pec (sleepStream a)) ha))
    |>.next rfl (fun _ _ hd => bmEndRecorded_goesOn true hd)
    |>.next rfl (fun _ _ _ => gpio_goesOn .scl .outputLow)
    |>.ends rfl sleepPark_phase (fun s _ => sleepPark_trace s)

end Sys2Proof.Machine
end

section
/-! The statement of 30_encoding.md on the wire frames (O21). -/

namespace Sys2Proof.Machine

/-- Settles O21: the port events of each command, read as frames. -/
theorem busCommandsMakeFrames : Obligations.BusCommandsMakeFrames := by
  intro s hbusy hparked hwaits hstatus
  refine ⟨fun reg hcount => ?_, fun reg w => ?_, ?_, ?_⟩
  · obtain ⟨t, hexec, htrace⟩ := exec_readWord_events reg hbusy hparked hwaits hstatus hcount
    exact ⟨t, _, hexec, htrace, by simp [frames, framesFrom, onWire, addrByteW, addrByteR]⟩
  · obtain ⟨t, hexec, htrace⟩ := exec_writeWord_events reg w hbusy hparked hwaits
    exact ⟨t, _, hexec, htrace,
      by simp [frames, framesFrom, onWire, hstatus, writeStream, addrByteW, lsbOf, msbOf]⟩
  · obtain ⟨t, hexec, htrace⟩ := exec_sleep_events hbusy hparked hwaits
    exact ⟨t, _, hexec, htrace,
      by simp [frames, framesFrom, onWire, hstatus, sleepStream, addrByteW, Config.sleepCmd]⟩
  · obtain ⟨t, hexec, htrace⟩ := exec_probe_events hbusy hparked hwaits
    exact ⟨t, _, hexec, htrace, by simp [frames, framesFrom, onWire, hstatus, addrByteW]⟩

end Sys2Proof.Machine
end

section
/-! SUPPORT. The step of the PEC generator and its fold, over GF(2) (40_crc.md R79 to R81). -/

namespace Sys2Proof.Machine

/-! ### A conditional XOR -/

theorem ite_xor_eq_xor_ite {n : Nat} (b : Bool) (a x : BitVec n) :
    (if b then a ^^^ x else a) = a ^^^ (if b then x else 0#n) := by
  cases b <;> simp

theorem ite_bxor_eq_xor {n : Nat} (a b : Bool) (x : BitVec n) :
    (if (a ^^ b) then x else 0#n) = (if a then x else 0#n) ^^^ (if b then x else 0#n) := by
  cases a <;> cases b <;> simp

/-! ### One iteration -/

theorem crcShift_eq_xor (v : Byte) : crcShift v = v <<< 1 ^^^ (if v.getLsbD 7 then Config.poly else 0#8) :=
  ite_xor_eq_xor_ite (v.getLsbD 7) (v <<< 1) Config.poly

theorem crcShift_xor (v w : Byte) : crcShift (v ^^^ w) = crcShift v ^^^ crcShift w := by
  simp only [crcShift_eq_xor, BitVec.shiftLeft_xor_distrib, BitVec.getLsbD_xor, ite_bxor_eq_xor]
  ac_rfl

/-- The constant term of P is 1, so the iteration does not lose v[7]: it moves to bit 0 (R80). -/
theorem crcShift_getLsbD_zero (v : Byte) : (crcShift v).getLsbD 0 = v.getLsbD 7 := by
  rw [crcShift_eq_xor, BitVec.getLsbD_xor]
  cases v.getLsbD 7 <;> simp [Config.poly]

theorem crcShift_injective : Function.Injective crcShift := by
  intro v w h
  have top : v.getLsbD 7 = w.getLsbD 7 := by
    rw [← crcShift_getLsbD_zero, h, crcShift_getLsbD_zero]
  have rest : v <<< 1 = w <<< 1 := by
    rw [crcShift_eq_xor, crcShift_eq_xor, top] at h
    exact (BitVec.xor_left_inj _).mp h
  apply BitVec.eq_of_getLsbD_eq
  intro i hi
  obtain rfl | hlow : i = 7 ∨ i + 1 < 8 := by omega
  · exact top
  · simpa [-BitVec.getLsbD_eq_getElem, hlow] using congrArg (BitVec.getLsbD · (i + 1)) rest

/-- The product with x: the term x⁸ on its own, and the shift in 8 bits. -/
theorem setWidth_shiftLeft_one (v : Byte) :
    v.setWidth 16 <<< 1 = (if v.getLsbD 7 then BitVec.twoPow 16 8 else 0#16) ^^^ (v <<< 1).setWidth 16 := by
  apply BitVec.eq_of_getLsbD_eq
  intro i hi
  have carry : (if v.getLsbD 7 then BitVec.twoPow 16 8 else 0#16).getLsbD i = (decide (8 = i) && v.getLsbD 7) := by
    cases v.getLsbD 7 <;> simp [BitVec.getLsbD_twoPow]
  simp only [BitVec.getLsbD_xor, carry, BitVec.getLsbD_setWidth, BitVec.getLsbD_shiftLeft]
  obtain hlow | rfl | hhigh : i < 8 ∨ i = 8 ∨ 8 < i := by omega
  · simp [hi, hlow, hlow.ne', show i - 1 < 16 by omega]
  · simp
  · simp [hhigh.ne, hhigh.not_gt, show 8 ≤ i - 1 by omega]

/-- The iteration multiplies by x and takes P away when a term x⁸ appears (R80). -/
theorem setWidth_shiftLeft_one_eq_crcShift (v : Byte) :
    v.setWidth 16 <<< 1 = (if v.getLsbD 7 then 0x107#16 else 0#16) ^^^ (crcShift v).setWidth 16 := by
  rw [setWidth_shiftLeft_one, crcShift_eq_xor, BitVec.setWidth_xor]
  cases v.getLsbD 7
  · simp
  · rw [BitVec.xor_comm ((v <<< 1).setWidth 16), ← BitVec.xor_assoc]
    rfl

/-! ### The iterations -/

theorem crcShifts_xor (n : Nat) (v w : Byte) : crcShifts n (v ^^^ w) = crcShifts n v ^^^ crcShifts n w := by
  induction n generalizing v w with
  | zero => rfl
  | succ n ih => rw [crcShifts, crcShift_xor, ih, crcShifts, crcShifts]

theorem crcShifts_injective (n : Nat) : Function.Injective (crcShifts n) := by
  induction n with
  | zero => exact Function.injective_id
  | succ n ih => exact ih.comp crcShift_injective

/-! ### Multiples of P -/

theorem timesP_xor (q r : Byte) : timesP (q ^^^ r) = timesP q ^^^ timesP r := by
  refine List.foldl_hom₂ _ (· ^^^ ·) _ _ _ 0#16 0#16 fun a b i => ?_
  simp only [ite_xor_eq_xor_ite, BitVec.getLsbD_xor, ite_bxor_eq_xor]
  ac_rfl

theorem timesP_twoPow : ∀ n < 8, timesP (BitVec.twoPow 8 n) = 0x107#16 <<< n := by decide

/-- n iterations are a division by P of the value times xⁿ (R80). -/
theorem exists_quotient_crcShifts {n : Nat} (hn : n ≤ 8) (v : Byte) :
    ∃ q : Byte, v.setWidth 16 <<< n = timesP q ^^^ (crcShifts n v).setWidth 16 := by
  induction n generalizing v with
  | zero => exact ⟨0#8, by simp [crcShifts, timesP]⟩
  | succ n ih =>
    obtain ⟨q, hq⟩ := ih (Nat.le_of_succ_le hn) (crcShift v)
    have division := calc v.setWidth 16 <<< (n + 1)
      _ = v.setWidth 16 <<< 1 <<< n := by rw [Nat.add_comm, BitVec.shiftLeft_add]
      _ = (if v.getLsbD 7 then 0x107#16 else 0#16) <<< n ^^^ (crcShift v).setWidth 16 <<< n := by
        rw [setWidth_shiftLeft_one_eq_crcShift, BitVec.shiftLeft_xor_distrib]
      _ = (if v.getLsbD 7 then 0x107#16 else 0#16) <<< n ^^^
          (timesP q ^^^ (crcShifts n (crcShift v)).setWidth 16) := by rw [hq]
    rw [division, crcShifts]
    cases v.getLsbD 7
    · exact ⟨q, by simp⟩
    · exact ⟨BitVec.twoPow 8 n ^^^ q, by simp [timesP_xor, timesP_twoPow n hn, BitVec.xor_assoc]⟩

/-! ### The step -/

theorem crc8Step_eq_crc8Step_zero (c d : Byte) : crc8Step c d = crc8Step 0#8 (c ^^^ d) := by
  rw [crc8Step, crc8Step, BitVec.zero_xor]

theorem crc8Step_comm (c d : Byte) : crc8Step c d = crc8Step d c := by
  rw [crc8Step, BitVec.xor_comm, crc8Step]

theorem crc8Step_xor (c c' d d' : Byte) : crc8Step (c ^^^ c') (d ^^^ d') = crc8Step c d ^^^ crc8Step c' d' := by
  rw [crc8Step, crc8Step, crc8Step, ← crcShifts_xor]
  ac_rfl

theorem crc8Step_injective (c : Byte) : Function.Injective (crc8Step c) :=
  (crcShifts_injective 8).comp fun _ _ h => (BitVec.xor_right_inj c).mp h

@[simp] theorem crc8Step_self (c : Byte) : crc8Step c c = 0#8 := by
  rw [crc8Step, BitVec.xor_self]
  rfl

theorem crc8Step_eq_zero_iff (c d : Byte) : crc8Step c d = 0#8 ↔ c = d := by
  rw [← crc8Step_self c, (crc8Step_injective c).eq_iff, eq_comm]

/-! ### The fold -/

theorem pec_append (l r : List Byte) : pec (l ++ r) = r.foldl crc8Step (pec l) := List.foldl_append

set_option maxRecDepth 4000 in
/-- The check value of the catalogue entry CRC-8 (R82). -/
theorem pec_check_value :
    pec [0x31#8, 0x32#8, 0x33#8, 0x34#8, 0x35#8, 0x36#8, 0x37#8, 0x38#8, 0x39#8] = 0xF4#8 := by decide

theorem foldl_crc8Step_zipWith_xor (c c' : Byte) {l l' : List Byte} (h : l.length = l'.length) :
    (List.zipWith (· ^^^ ·) l l').foldl crc8Step (c ^^^ c') = l.foldl crc8Step c ^^^ l'.foldl crc8Step c' := by
  induction l generalizing c c' l' with
  | nil =>
    obtain rfl := List.eq_nil_of_length_eq_zero h.symm
    rfl
  | cons b l ih =>
    cases l' with
    | nil => simp at h
    | cons b' l' =>
      rw [List.zipWith_cons_cons, List.foldl_cons, crc8Step_xor]
      exact ih _ _ (Nat.succ.inj h)

theorem foldl_crc8Step_injective (r : List Byte) : Function.Injective (r.foldl crc8Step) := by
  induction r with
  | nil => exact Function.injective_id
  | cons b r ih =>
    refine ih.comp fun c c' h => crc8Step_injective b ?_
    rw [crc8Step_comm b, crc8Step_comm b]
    exact h

end Sys2Proof.Machine
end

section
/-! The statements of 40_crc.md on the PEC generator (O6, O7). -/

namespace Sys2Proof.Machine

/-- Settles O6: each of the eight iterations is one step of the long division by P, and none of them loses a bit. -/
theorem crcStepIsRemainder : Obligations.CrcStepIsRemainder :=
  ⟨fun c d => exists_quotient_crcShifts (Nat.le_refl 8) (c ^^^ d), crc8Step_eq_crc8Step_zero,
    fun c => (crc8Step_injective c).bijective_of_finite, crc8Step_eq_zero_iff⟩

/-- Settles O7: the laws of the step, carried along the fold. -/
theorem pecLaws : Obligations.PecLaws := by
  refine ⟨fun l => ?_, fun l1 l2 => ?_, fun l r a b hab h => hab ?_, pec_check_value⟩
  · rw [pec_append]
    exact crc8Step_self (pec l)
  · exact foldl_crc8Step_zipWith_xor Config.seed Config.seed
  · rw [pec_append, pec_append] at h
    exact crc8Step_injective (pec l) (foldl_crc8Step_injective r h)

end Sys2Proof.Machine
end

section
/-! SUPPORT. The run of a command whose actions before the last never end it, and the events of WAKE (10_state.md R39,
42_sleep_wake.md R95). -/

namespace Sys2Proof.Machine

/-- In every state the action leaves the command running and the host where it is. -/
def KeepsRunning (act : SeqAct) : Prop :=
  ∀ s, (act s).phase = s.phase ∧ (act s).program = s.program ∧ (act s).hpc = s.hpc

theorem bump_of_idle {s : State} (h : s.phase = .idle) : s.bump = s := by
  rw [State.bump, h, Phase.next, ← h]

/-- A command with `acts` and then `last` to carry out, of which only `last` ends it, carries them out in turn. -/
theorem runSteps_eq_foldl {i : Instr} {n : Nat} {s : State} {acts : List SeqAct} {last : SeqAct}
    (hwaits : s.hostWaits = true) (hphase : s.phase = .run i (BitVec.ofNat 4 n))
    (hsteps : (stepsOf i).drop n = acts ++ [last]) (hrunning : ∀ act ∈ acts, KeepsRunning act)
    (hidle : ∀ s, (last s).phase = .idle) :
    runSteps (stepsOf i) (maxSteps - n) s = last (acts.foldl (fun s act => (act s).bump) s) := by
  induction acts generalizing n s with
  | nil =>
    have hact : (stepsOf i)[n]? = some last := by rw [← List.head?_drop, hsteps]; rfl
    rw [runSteps_at hwaits hphase hact, bump_of_idle (hidle s), runSteps_of_idle _ _ (hidle s), List.foldl_nil]
  | cons act acts ih =>
    have hact : (stepsOf i)[n]? = some act := by rw [← List.head?_drop, hsteps]; rfl
    have hrest : (stepsOf i).drop (n + 1) = acts ++ [last] := by rw [← List.tail_drop, hsteps]; rfl
    obtain ⟨hacts, hlater⟩ := List.forall_mem_cons.mp hrunning
    obtain ⟨hsame, hprogram, hhpc⟩ := hacts s
    have hwaits' : (act s).bump.hostWaits = true := (hostWaits_congr hprogram hhpc).trans hwaits
    have hphase' : (act s).bump.phase = .run i (BitVec.ofNat 4 (n + 1)) := by
      rw [State.bump_phase, hsame, hphase, Phase.next, BitVec.ofNat_add]
    rw [runSteps_at hwaits hphase hact, ih hwaits' hphase' hrest hlater, List.foldl_cons]

/-- Only STEP 9 ends a WAKE. -/
theorem wakeSteps_dropLast_keepRunning : ∀ act ∈ wakeSteps.dropLast, KeepsRunning act := by
  simp only [wakeSteps, List.dropLast_cons_cons, List.dropLast_singleton, List.forall_mem_cons]
  refine ⟨?_, ?_, ?_, ?_, ?_, ?_, ?_, ?_, ?_, List.forall_mem_nil _⟩ <;> exact fun _ => ⟨rfl, rfl, rfl⟩

/-- WAKE that the host does not interrupt, as one equation (R95). -/
theorem exec_wake_eq {s : State} (hbusy : s.busy = false) (hwaits : s.hostWaits = true) :
    exec .wake s =
      .next { s with
        busy := false, phase := .idle, ok := true, err := .none
        parked := false, sclMode := .bus, sdaMode := .bus
        trace := s.trace ++ [.bmEnd true (s.drawAt 0), .gpio .scl .input, .gpio .sda .outputLow,
          .delay s.timing.wakeSdaLow, .gpio .sda .input, .delay s.timing.startup, .gpio .scl .outputLow,
          .delay s.timing.sclLow, .gpio .scl .input, .bmBegin s.addr]
        draws := s.draws.drop 1, drawCount := s.drawCount + 1 } := by
  have run : runSteps wakeSteps maxSteps (s.accepted.enter .wake) =
      wakeHandBack (wakeSteps.dropLast.foldl (fun s act => (act s).bump) (s.accepted.enter .wake)) :=
    runSteps_eq_foldl (i := .wake) (n := 0) (hostWaits_enter .wake hwaits) rfl rfl wakeSteps_dropLast_keepRunning
      fun _ => rfl
  have answer : (s.accepted.enter .wake).drawAt 0 = s.drawAt 0 := State.drawAt_congr rfl rfl 0
  rw [exec, execWake, start, whenNotBusy_of_not_busy hbusy, run, wakeHandBack_eq]
  simp [wakeSteps, bmEnd_eq, gpio_scl_eq, gpio_sda_eq, delay_eq, GpioMode.toLineMode, answer]

end Sys2Proof.Machine
end

section
/-! The statement of 42_sleep_wake.md on the edges of WAKE (O19). -/

namespace Sys2Proof.Machine

/-- Settles O19: the events of WAKE, read from the levels SLEEP leaves. -/
theorem wakeEdgeSequence : Obligations.WakeEdgeSequence := by
  intro s hbusy hwaits _
  exact ⟨_, _, exec_wake_eq hbusy hwaits, rfl, rfl, rfl, rfl⟩

end Sys2Proof.Machine
end

section
/-! SUPPORT. A reset of an idle block, and the step of an idle block whose host has no line left
(70_reset_and_hazards.md R117). -/

namespace Sys2Proof.Machine

variable {s : State}

/-- The refusal of R118 aside, a reset always answers. -/
theorem hostAct_reset_of_not_busy (hbusy : s.busy = false) : hostAct .reset s = .next (resetBlock s) := by
  simp only [hostAct, hostReset, hbusy, Bool.false_eq_true, if_false]

theorem hostMove_of_no_line (hline : s.nextLine = none) : hostMove s = .next s := by
  simp only [hostMove, hline]

/-- While BUSY = 0 only the host moves. -/
theorem step_of_not_busy (htiming : s.timing.wf = true) (hfaults : s.faults = []) (hbusy : s.busy = false) :
    step s = hostMove s := by
  simp [step, nextMove, htiming, hfaults, hbusy]

end Sys2Proof.Machine
end

section
/-! The statement of 70_reset_and_hazards.md on reset (O29). -/

namespace Sys2Proof.Machine

/-- Settles O29: a reset of an idle block takes its registers from the reset state and its trace from the block; an idle
block leaves the move to the host, and a host without a line makes none. -/
theorem resetSetsEveryRegister : Obligations.ResetSetsEveryRegister := by
  refine ⟨fun s t ht => ?_, fun s hbusy => ⟨resetBlock s, hostAct_reset_of_not_busy hbusy, rfl⟩, rfl, rfl, ?_⟩
  · have hreset : t = State.reset ∨ t = resetBlock s := by
      refine ht.imp_right fun ⟨hbusy, hnext⟩ => ?_
      rw [hostAct_reset_of_not_busy hbusy] at hnext
      exact (Host.Outcome.next.inj hnext).symm
    rcases hreset with rfl | rfl <;> exact ⟨rfl, rfl, rfl, rfl, rfl, rfl, rfl, rfl, rfl, rfl, rfl, rfl⟩
  · intro s htiming hfaults hbusy hline
    rw [step_of_not_busy htiming hfaults hbusy, hostMove_of_no_line hline]

end Sys2Proof.Machine
end

section
/-! SUPPORT. The encoder writes the fields that the decoder reads (30_encoding.md R66, R69, R70). -/

namespace Sys2Proof

/-- WDATA is HI and LO side by side (R66). -/
theorem wdataField_eq_append (c : Word32) : wdataField c = hiField c ++ loField c :=
  (BitVec.extractLsb'_append_extractLsb'_eq_extractLsb' (start₁ := 0) (len₁ := 8) rfl).symm

/-- The encoded word belongs to the command's row of the command map. -/
theorem encode_matches_row (i : Instr) : encode i &&& i.row.mask = i.row.value := by
  have selects : i.row.selects (encode i) = true := by
    cases i with
    | crcStep seed data => exact Laws.RowMatch.crcStep seed data
    | setAddr a8 => exact Laws.RowMatch.setAddr a8
    | probe => exact Laws.RowMatch.probe
    | readWord reg => exact Laws.RowMatch.readWord reg
    | writeWord reg w => exact Laws.RowMatch.writeWord reg w
    | sleep => exact Laws.RowMatch.sleep
    | wake => exact Laws.RowMatch.wake
  simpa [CmdRow.selects] using selects

/-- Every operand of a command is the field of its encoding that the command map names for it. -/
theorem withOperands_encode (i : Instr) : i.withOperands (encode i) = i := by
  cases i with
  | writeWord reg w =>
    have halves : w.extractLsb' 8 8 ++ w.extractLsb' 0 8 = w :=
      (BitVec.extractLsb'_append_extractLsb'_eq_extractLsb' (start₁ := 0) (len₁ := 8) rfl).trans
        BitVec.extractLsb'_eq_self
    simp [Instr.withOperands, encode, wdataField_eq_append, halves]
  | _ => simp [Instr.withOperands, encode]

@[simp] theorem decode_encode (i : Instr) : decode (encode i) = .ok i :=
  decode_eq_ok_iff.mpr ⟨encode_matches_row i, withOperands_encode i⟩

/-- The fields a row fixes and the operands make up the whole word. -/
theorem encode_withOperands {c : Word32} {i : Instr} (h : i.fixesFields c) : encode (i.withOperands c) = c := by
  have hrsv : rsvField c = 0#4 := by cases i <;> simp_all [Instr.fixesFields]
  conv_rhs => rw [← packWord_fields hrsv]
  cases i with
  | crcStep =>
    obtain ⟨hop, -, hreg⟩ := h
    rw [hop, hreg]; rfl
  | setAddr =>
    obtain ⟨hop, -, hreg, hhi⟩ := h
    rw [hop, hreg, hhi]; rfl
  | readWord =>
    obtain ⟨hop, -, hhi, hlo⟩ := h
    rw [hop, hhi, hlo]; rfl
  | writeWord =>
    obtain ⟨hop, -⟩ := h
    have hhi : (wdataField c).extractLsb' 8 8 = hiField c := by
      apply BitVec.eq_of_getLsbD_eq; intro i hi; simp [wdataField, hiField]
    have hlo : (wdataField c).extractLsb' 0 8 = loField c := by
      apply BitVec.eq_of_getLsbD_eq; intro i hi; simp [wdataField, loField]
    rw [hop, ← hhi, ← hlo]; rfl
  | probe | sleep | wake =>
    obtain ⟨hop, -, hreg, hhi, hlo⟩ := h
    rw [hop, hreg, hhi, hlo]; rfl

theorem encode_of_decode {c : Word32} {i : Instr} (h : decode c = .ok i) : encode i = c := by
  obtain ⟨hfields, hops⟩ := fixesFields_of_decode h
  rw [← hops, encode_withOperands hfields]

end Sys2Proof
end

section
/-! The statements of 30_encoding.md on the encoder (O1, O2, O5). -/

namespace Sys2Proof.Machine

/-- Settles O1: the encoding matches the command's row and carries its operands. -/
theorem decodeOfEncode : Obligations.DecodeOfEncode := fun i _ => decode_encode i

/-- Settles O2: a word that matches a row is the row's fixed fields and its operands. -/
theorem encodeOfDecode : Obligations.EncodeOfDecode := fun _ _ => encode_of_decode

/-- Settles O5: each word is the encoding of its command. -/
theorem exampleWordsDecode : Obligations.ExampleWordsDecode :=
  ⟨decode_encode (.crcStep 0x05#8 0xFF#8), decode_encode (.setAddr 0x5A#8), decode_encode .probe,
    decode_encode (.readWord 0x07#8), decode_encode (.writeWord 0x24#8 0xF332#16), decode_encode .sleep,
    decode_encode .wake⟩

end Sys2Proof.Machine
end

section
/-! SUPPORT. The moves of the block: all that a step can do to what is not the host's own record. -/

namespace Sys2Proof.Machine

/-- The two states differ in the host's place, its log and its count of free reads only. -/
def SameBlock (s t : State) : Prop :=
  ∃ freeReadCount hpc hostLog, t = { s with freeReadCount := freeReadCount, hpc := hpc, hostLog := hostLog }

theorem SameBlock.refl (s : State) : SameBlock s s := ⟨_, _, _, rfl⟩

theorem SameBlock.trans {s t u : State} (hst : SameBlock s t) (htu : SameBlock t u) : SameBlock s u := by
  obtain ⟨_, _, _, rfl⟩ := hst
  obtain ⟨c, p, l, rfl⟩ := htu
  exact ⟨c, p, l, rfl⟩

theorem sameBlock_afterRead (off : Nat) (s : State) : SameBlock s (afterRead off s) := ⟨_, _, _, rfl⟩

theorem sameBlock_logWrite (off : Nat) (c : Word32) (s : State) : SameBlock s (s.logWrite off c) := ⟨_, _, _, rfl⟩

theorem sameBlock_logEnd (s : State) : SameBlock s s.logEnd := ⟨_, _, _, rfl⟩

theorem sameBlock_hostWait (n : Nat) (s : State) : SameBlock s (hostWait n s) := ⟨_, _, _, rfl⟩

theorem sameBlock_hostIfFail (target : Nat) (s : State) : SameBlock s (hostIfFail target s) := by
  unfold hostIfFail
  split
  · exact .refl s
  · exact ⟨_, _, _, rfl⟩

/-- The moves of the block. -/
inductive BlockMove (s : State) : State → Prop
  | stay : BlockMove s s
  | fault (f : HostFault) : BlockMove s (s.recordFault f)
  | parkedFault (hparked : s.parked = true) : BlockMove s (s.accepted.recordFault .busWhileParked)
  | illegal (hbusy : s.busy = false) : BlockMove s { s with ok := false, err := .illegalCmd }
  | reset (hbusy : s.busy = false) : BlockMove s (resetBlock s)
  | command (i : Instr) (hbusy : s.busy = false) (hbus : usesBus i = true → s.parked = false) :
      BlockMove s (runSteps (stepsOf i) maxSteps (s.accepted.enter i))
  | goOn (i : Instr) (n : BitVec 4) (hphase : s.phase = .run i n) :
      BlockMove s (runSteps (stepsOf i) maxSteps s)

theorem blockMove_of_exec {i : Instr} {s t : State} (h : exec i s = .next t) : BlockMove s t := by
  rcases exec_cases h with ⟨-, rfl⟩ | ⟨-, -, hparked, rfl⟩ | ⟨hbusy, hbus, rfl⟩
  · exact .fault _
  · exact .parkedFault hparked
  · exact .command i hbusy hbus

theorem blockMove_of_writeCmd {c : Word32} {s t : State} (h : writeCmd c s = .next t) : BlockMove s t := by
  rcases writeCmd_cases h with ⟨i, -, hexec⟩ | ⟨-, rfl⟩
  · exact blockMove_of_exec hexec
  · rcases illegalWord_cases s with ⟨-, ht⟩ | ⟨hbusy, ht⟩ <;> rw [ht]
    · exact .fault _
    · exact .illegal hbusy

theorem blockMove_resume (s : State) : BlockMove s (resume s) := by
  unfold resume
  split
  · exact .stay
  · rename_i i n hphase
    exact .goOn i n hphase

theorem hostAct_blockMove {a : HostAct} {s t : State} (h : hostAct a s = .next t) :
    ∃ u v, SameBlock s u ∧ BlockMove u v ∧ SameBlock v t := by
  have recordOnly {t : State} (hst : SameBlock s t) : ∃ u v, SameBlock s u ∧ BlockMove u v ∧ SameBlock v t :=
    ⟨s, s, .refl s, .stay, hst⟩
  rcases hostAct_cases h with ⟨u, hu, hut⟩ | ⟨off, rfl⟩ | ⟨n, rfl⟩ | ⟨n, rfl⟩ | ⟨hbusy, rfl⟩
  · have hsu : SameBlock s u := by
      rcases hu with hu | hu <;> rw [hu]
      · exact .refl s
      · exact sameBlock_afterRead _ s
    rcases hut with rfl | ⟨off, c, rfl⟩ | ⟨c, v, hv, rfl⟩
    · exact ⟨u, _, hsu, .fault _, .refl _⟩
    · exact recordOnly (hsu.trans (sameBlock_logWrite off c u))
    · exact ⟨_, v, hsu.trans (sameBlock_logWrite 0 c u), blockMove_of_writeCmd hv, sameBlock_logEnd v⟩
  · exact recordOnly (sameBlock_afterRead off s)
  · exact recordOnly (sameBlock_hostWait n s)
  · exact recordOnly (sameBlock_hostIfFail n s)
  · exact ⟨s, _, .refl s, .reset hbusy, .refl _⟩

/-- A step is one move of the block, before and after which the host's own record may change. -/
theorem step_blockMove {s t : State} (h : step s = .next t) :
    ∃ u v, SameBlock s u ∧ BlockMove u v ∧ SameBlock v t := by
  obtain ⟨-, -, ⟨-, -, rfl⟩ | ⟨-, rfl⟩ | ⟨l, -, hact⟩⟩ := step_cases h
  · exact ⟨s, _, .refl s, blockMove_resume s, sameBlock_logEnd _⟩
  · exact ⟨t, t, .refl t, .stay, .refl t⟩
  · obtain ⟨u, v, hsu, huv, hvt⟩ := hostAct_blockMove hact
    exact ⟨u, v, SameBlock.trans ⟨_, _, _, rfl⟩ hsu, huv, hvt⟩

/-- The rule of a run for a property that STEP does not touch: what every action of the command keeps, the run keeps. -/
theorem runSteps_keeps_of_acts {P : State → Prop} {i : Instr} (acts : ∀ act ∈ stepsOf i, ∀ s, P s → P (act s))
    (bump : ∀ s, P s → P s.bump) (fuel : Nat) {s : State} (h : P s) : P (runSteps (stepsOf i) fuel s) :=
  runSteps_keeps (stepsOf i) (seqTick_keeps (stepsOf i) acts bump) fuel s h

end Sys2Proof.Machine
end

section
/-! SUPPORT. The port events of an action and the answers they record (20_memory.md R47, R59, R60). -/

namespace Sys2Proof.Machine

theorem answersOf_append (es es' : List Event) : answersOf (es ++ es') = answersOf es ++ answersOf es' := by
  induction es with
  | nil => rfl
  | cons e es ih => cases e <;> simp [answersOf, ih]

/-- From `s` to `t` the events `es` are issued, and the answers they record are the next ones, each taken once. -/
structure Issues (s t : State) (es : List Event) : Prop where
  trace : t.trace = s.trace ++ es
  draws : t.draws = s.draws.drop (answersOf es).length
  drawCount : t.drawCount = s.drawCount + (answersOf es).length
  answers : answersOf es = (List.range (answersOf es).length).map s.drawAt

theorem Issues.none {s t : State} (htrace : t.trace = s.trace) (hdraws : t.draws = s.draws)
    (hcount : t.drawCount = s.drawCount) : Issues s t [] :=
  ⟨by simp [htrace], hdraws, hcount, rfl⟩

theorem Issues.trans {s t u : State} {es es' : List Event} (hst : Issues s t es) (htu : Issues t u es') :
    Issues s u (es ++ es') := by
  have later (k : Nat) : t.drawAt k = s.drawAt ((answersOf es).length + k) :=
    State.drawAt_of_drop hst.draws hst.drawCount k
  refine ⟨?_, ?_, ?_, ?_⟩
  · rw [htu.trace, hst.trace, List.append_assoc]
  · rw [htu.draws, hst.draws, List.drop_drop, answersOf_append, List.length_append]
  · rw [htu.drawCount, hst.drawCount, answersOf_append, List.length_append, Nat.add_assoc]
  · rw [answersOf_append, List.length_append, List.range_add, List.map_append, List.map_map, ← hst.answers]
    refine congrArg (answersOf es ++ ·) ?_
    rw [htu.answers, List.length_map, List.length_range]
    exact List.map_congr_left fun k _ => later k

/-- Which events a command may issue while ADDR is `a`: transactions addressed to `a`, Gpio events in SLEEP and WAKE,
delays in WAKE, and none in SET_ADDR. -/
def mayIssue (a : Addr7) : Instr → Event → Prop
  | .setAddr _, _ => False
  | _, .bmBegin b => b = a
  | _, .bmRequest b _ _ => b = a
  | i, .gpio _ _ => i = .sleep ∨ i = .wake
  | i, .delay _ => i = .wake
  | _, _ => True

theorem addressedTo_of_mayIssue {a : Addr7} {i : Instr} {e : Event} (h : mayIssue a i e) : addressedTo a e := by
  cases i with
  | setAddr => exact h.elim
  | _ =>
    cases e with
    | bmBegin | bmRequest => exact h
    | _ => trivial

theorem sleep_or_wake_of_mayIssue_gpio {a : Addr7} {i : Instr} {line : Line} {mode : GpioMode}
    (h : mayIssue a i (.gpio line mode)) : i = .sleep ∨ i = .wake := by
  cases i with
  | setAddr => exact h.elim
  | _ => exact h

theorem wake_of_mayIssue_delay {a : Addr7} {i : Instr} {ms : Nat} (h : mayIssue a i (.delay ms)) : i = .wake := by
  cases i with
  | setAddr => exact h.elim
  | _ => exact h

/-- From `s` to `t` only events that the command may issue are issued, and only SET_ADDR changes ADDR. -/
def IssuesFor (i : Instr) (s t : State) : Prop :=
  ∃ es, Issues s t es ∧ (∀ e ∈ es, mayIssue s.addr i e) ∧ (t.addr = s.addr ∨ ∃ a8, i = .setAddr a8)

theorem IssuesFor.none {i : Instr} {s t : State} (htrace : t.trace = s.trace) (hdraws : t.draws = s.draws)
    (hcount : t.drawCount = s.drawCount) (haddr : t.addr = s.addr ∨ ∃ a8, i = .setAddr a8) : IssuesFor i s t :=
  ⟨[], .none htrace hdraws hcount, List.forall_mem_nil _, haddr⟩

/-- One event that records no answer. -/
theorem IssuesFor.event {i : Instr} {s t : State} (e : Event) (hmay : mayIssue s.addr i e)
    (hanswers : answersOf [e] = []) (htrace : t.trace = s.trace ++ [e]) (hdraws : t.draws = s.draws)
    (hcount : t.drawCount = s.drawCount) (haddr : t.addr = s.addr) : IssuesFor i s t := by
  refine ⟨[e], ⟨htrace, ?_, ?_, ?_⟩, List.forall_mem_singleton.mpr hmay, .inl haddr⟩ <;> simp [*]

/-- One event that records the next answer. -/
theorem IssuesFor.answer {i : Instr} {s t : State} (e : Event) (hmay : mayIssue s.addr i e)
    (hanswers : answersOf [e] = [s.drawAt 0]) (htrace : t.trace = s.trace ++ [e]) (hdraws : t.draws = s.draws.tail)
    (hcount : t.drawCount = s.drawCount + 1) (haddr : t.addr = s.addr) : IssuesFor i s t := by
  refine ⟨[e], ⟨htrace, ?_, ?_, ?_⟩, List.forall_mem_singleton.mpr hmay, .inl haddr⟩ <;> simp [*]

theorem IssuesFor.trans {i : Instr} {s t u : State} (hst : IssuesFor i s t) (htu : IssuesFor i t u) :
    IssuesFor i s u := by
  obtain ⟨es, hes, hmay, haddr⟩ := hst
  obtain ⟨es', hes', hmay', haddr'⟩ := htu
  refine ⟨es ++ es', hes.trans hes', List.forall_mem_append.mpr ⟨hmay, fun e he => ?_⟩, ?_⟩
  · rcases haddr with haddr | ⟨a8, rfl⟩
    · exact haddr ▸ hmay' e he
    · exact (hmay' e he).elim
  · rcases haddr with haddr | hset
    · exact haddr'.imp_left (·.trans haddr)
    · exact .inr hset

/-! ### The actions -/

variable {i : Instr} {s : State}

theorem bmBegin_issues (h : mayIssue s.addr i (.bmBegin s.addr)) : IssuesFor i s (bmBegin s) :=
  .event _ h rfl rfl rfl rfl rfl

theorem bmWrite_issues {b : Byte} (h : mayIssue s.addr i (.bmWrite b)) : IssuesFor i s (bmWrite b s) :=
  .event _ h rfl rfl rfl rfl rfl

theorem gpio_issues {line : Line} {mode : GpioMode} (h : mayIssue s.addr i (.gpio line mode)) :
    IssuesFor i s (gpio line mode s) :=
  .event _ h rfl rfl rfl rfl rfl

theorem delay_issues {ms : Nat} (h : mayIssue s.addr i (.delay ms)) : IssuesFor i s (delay ms s) :=
  .event _ h rfl rfl rfl rfl rfl

theorem bmEnd_issues {stop : Bool} (h : mayIssue s.addr i (.bmEnd stop (s.drawAt 0))) : IssuesFor i s (bmEnd stop s) :=
  .answer _ h rfl (by rw [bmEnd_eq]) rfl rfl rfl

theorem bmEndRecorded_issues {stop : Bool} (h : mayIssue s.addr i (.bmEnd stop (s.drawAt 0))) :
    IssuesFor i s (bmEndRecorded stop s) :=
  .answer _ h rfl (by rw [bmEndRecorded_eq]) rfl rfl rfl

theorem finalEnd_issues (h : mayIssue s.addr i (.bmEnd true (s.drawAt 0))) : IssuesFor i s (finalEnd s) := by
  rw [finalEnd_eq]
  exact .answer _ h rfl rfl rfl rfl rfl

theorem readSelect_issues (h : mayIssue s.addr i (.bmEnd false (s.drawAt 0))) : IssuesFor i s (readSelect s) := by
  rw [readSelect_eq]
  have hend : IssuesFor i s (bmEndRecorded false s) := bmEndRecorded_issues h
  split
  · exact hend
  · exact hend.trans (.none rfl rfl rfl (.inl rfl))

theorem readRequest_issues (h : mayIssue s.addr i (.bmRequest s.addr Config.readLen (s.drawAt 0))) :
    IssuesFor i s (readRequest s) := by
  rw [readRequest_eq]
  have hrequest : IssuesFor i s (bmRequest s) := .answer _ h rfl (by rw [bmRequest_eq]) rfl rfl rfl
  split
  · exact hrequest
  · exact hrequest.trans (.none rfl rfl rfl (.inl rfl))

theorem readLsb_issues (h : mayIssue s.addr i (.bmRead (s.drawAt 0))) : IssuesFor i s (readLsb s) := by
  rw [readLsb_eq]
  exact .answer _ h rfl rfl rfl rfl rfl

theorem readMsb_issues (h : mayIssue s.addr i (.bmRead (s.drawAt 0))) : IssuesFor i s (readMsb s) := by
  rw [readMsb_eq]
  exact .answer _ h rfl rfl rfl rfl rfl

theorem readPec_issues (h : mayIssue s.addr i (.bmRead (s.drawAt 0))) : IssuesFor i s (readPec s) := by
  rw [readPec_eq]
  exact .answer _ h rfl rfl rfl rfl rfl

theorem readCheck_issues (reg : Byte) : IssuesFor i s (readCheck reg s) := by
  rw [readCheck_eq]
  split <;> exact .none rfl rfl rfl (.inl rfl)

theorem setAddrAct_issues (a8 : Byte) : IssuesFor (.setAddr a8) s (setAddrAct a8 s) := by
  rw [setAddrAct_eq]
  split <;> exact .none rfl rfl rfl (.inr ⟨a8, rfl⟩)

theorem sleepPark_issues (h : mayIssue s.addr i (.gpio .sda .input)) : IssuesFor i s (sleepPark s) := by
  rw [sleepPark_eq]
  exact .event _ h rfl rfl rfl rfl rfl

theorem wakeHandBack_issues (h : mayIssue s.addr i (.bmBegin s.addr)) : IssuesFor i s (wakeHandBack s) :=
  .event _ h rfl rfl rfl rfl rfl

/-- Every action of a command issues at most one event, and one that the command may issue. -/
theorem act_issues (i : Instr) : ∀ act ∈ stepsOf i, ∀ s, IssuesFor i s (act s) := by
  cases i with
  | crcStep seed data =>
    simp only [stepsOf, crcStepSteps, List.forall_mem_singleton]
    exact fun _ => .none rfl rfl rfl (.inl rfl)
  | setAddr a8 =>
    simp only [stepsOf, setAddrSteps, List.forall_mem_singleton]
    exact fun _ => setAddrAct_issues a8
  | probe =>
    simp only [stepsOf, probeSteps, List.forall_mem_cons]
    exact ⟨fun _ => bmBegin_issues rfl, fun _ => finalEnd_issues trivial, List.forall_mem_nil _⟩
  | readWord reg =>
    simp only [stepsOf, readWordSteps, List.forall_mem_cons]
    exact ⟨fun _ => bmBegin_issues rfl, fun _ => bmWrite_issues trivial, fun _ => readSelect_issues trivial,
      fun _ => readRequest_issues rfl, fun _ => readLsb_issues trivial, fun _ => readMsb_issues trivial,
      fun _ => readPec_issues trivial, fun _ => readCheck_issues reg, List.forall_mem_nil _⟩
  | writeWord reg w =>
    simp only [stepsOf, writeWordSteps, List.forall_mem_cons]
    exact ⟨fun _ => .none rfl rfl rfl (.inl rfl), fun _ => bmBegin_issues rfl, fun _ => bmWrite_issues trivial,
      fun _ => bmWrite_issues trivial, fun _ => bmWrite_issues trivial, fun _ => bmWrite_issues trivial,
      fun _ => finalEnd_issues trivial, List.forall_mem_nil _⟩
  | sleep =>
    simp only [stepsOf, sleepSteps, List.forall_mem_cons]
    exact ⟨fun _ => .none rfl rfl rfl (.inl rfl), fun _ => bmBegin_issues rfl, fun _ => bmWrite_issues trivial,
      fun _ => bmWrite_issues trivial, fun _ => bmEndRecorded_issues trivial, fun _ => gpio_issues (.inl rfl),
      fun _ => sleepPark_issues (.inl rfl), List.forall_mem_nil _⟩
  | wake =>
    simp only [stepsOf, wakeSteps, List.forall_mem_cons]
    exact ⟨fun _ => bmEnd_issues trivial, fun _ => gpio_issues (.inr rfl), fun _ => gpio_issues (.inr rfl),
      fun _ => delay_issues rfl, fun _ => gpio_issues (.inr rfl), fun _ => delay_issues rfl,
      fun _ => gpio_issues (.inr rfl), fun _ => delay_issues rfl, fun _ => gpio_issues (.inr rfl),
      fun _ => wakeHandBack_issues rfl, List.forall_mem_nil _⟩

theorem runSteps_issues (i : Instr) (fuel : Nat) (s : State) : IssuesFor i s (runSteps (stepsOf i) fuel s) :=
  runSteps_keeps_of_acts (P := IssuesFor i s)
    (fun act hact t h => h.trans (act_issues i act hact t))
    (fun _ h => h.trans (.none rfl rfl rfl (.inl rfl))) fuel (.none rfl rfl rfl (.inl rfl))

/-- Every move of the block issues events and records the answers it takes. -/
theorem BlockMove.issues {s t : State} (h : BlockMove s t) : ∃ es, Issues s t es := by
  cases h with
  | stay | fault | parkedFault | illegal | reset => exact ⟨[], .none rfl rfl rfl⟩
  | command i =>
    obtain ⟨es, hes, -⟩ := runSteps_issues i maxSteps (s.accepted.enter i)
    have haccept : Issues s (s.accepted.enter i) [] := .none rfl rfl rfl
    exact ⟨_, haccept.trans hes⟩
  | goOn i n hphase =>
    obtain ⟨es, hes, -⟩ := runSteps_issues i maxSteps s
    exact ⟨es, hes⟩

theorem step_issues {s t : State} (h : step s = .next t) : ∃ es, Issues s t es := by
  obtain ⟨u, v, ⟨_, _, _, rfl⟩, hmove, ⟨_, _, _, rfl⟩⟩ := step_blockMove h
  obtain ⟨es, hes⟩ := hmove.issues
  exact ⟨es, ⟨hes.trace, hes.draws, hes.drawCount, hes.answers⟩⟩

end Sys2Proof.Machine
end

section
/-! The statements of 20_memory.md on the trace and on the answers of the environment (O44, O45). -/

namespace Sys2Proof.Machine

/-- Settles O44: a step adds its events at the end. -/
theorem traceOnlyGrows : Obligations.TraceOnlyGrows := by
  intro s t h
  obtain ⟨es, hes⟩ := step_issues h
  exact ⟨es, hes.trace.symm⟩

/-- Settles O45: each action takes its answer and records it in one. -/
theorem answersAreTheDraws : Obligations.AnswersAreTheDraws := by
  intro s t h
  obtain ⟨es, hes⟩ := step_issues h
  refine ⟨(answersOf es).length, hes.drawCount, hes.draws, ?_⟩
  rw [hes.trace, answersOf_append, ← hes.answers]

end Sys2Proof.Machine
end

section
/-! SUPPORT. What the actions of a command leave as it is: the host's side, the registers that are not the command's,
and BUSY, OK, ERR and PHASE until the command ends. -/

namespace Sys2Proof.Machine

/-! ### What no action reads or writes -/

/-- The host's side of a state and FAULTS. -/
structure Outside where
  program : List HostLine
  hpc : Nat
  hostLog : List HostEvent
  freeReadCount : Nat
  faults : List HostFault

def State.outside (s : State) : Outside := ⟨s.program, s.hpc, s.hostLog, s.freeReadCount, s.faults⟩

/-- The same block beside another host. -/
def State.withOutside (s : State) (o : Outside) : State :=
  { s with program := o.program, hpc := o.hpc, hostLog := o.hostLog, freeReadCount := o.freeReadCount
           faults := o.faults }

@[simp] theorem State.outside_withOutside (s : State) (o : Outside) : (s.withOutside o).outside = o := rfl

theorem finalEnd_withOutside (s : State) (o : Outside) : finalEnd (s.withOutside o) = (finalEnd s).withOutside o := by
  rw [finalEnd_eq, finalEnd_eq]; rfl

theorem readSelect_withOutside (s : State) (o : Outside) :
    readSelect (s.withOutside o) = (readSelect s).withOutside o := by
  rw [readSelect_eq, readSelect_eq, apply_ite (State.withOutside · o)]; rfl

theorem readRequest_withOutside (s : State) (o : Outside) :
    readRequest (s.withOutside o) = (readRequest s).withOutside o := by
  rw [readRequest_eq, readRequest_eq, apply_ite (State.withOutside · o)]; rfl

theorem readCheck_withOutside (reg : Byte) (s : State) (o : Outside) :
    readCheck reg (s.withOutside o) = (readCheck reg s).withOutside o := by
  rw [readCheck_eq, readCheck_eq, apply_ite (State.withOutside · o)]; rfl

theorem setAddrAct_withOutside (a8 : Byte) (s : State) (o : Outside) :
    setAddrAct a8 (s.withOutside o) = (setAddrAct a8 s).withOutside o := by
  rw [setAddrAct_eq, setAddrAct_eq, apply_ite (State.withOutside · o)]; rfl

theorem sleepPark_withOutside (s : State) (o : Outside) :
    sleepPark (s.withOutside o) = (sleepPark s).withOutside o := by
  rw [sleepPark_eq, sleepPark_eq]; rfl

/-- An action does the same to the block whatever the host and FAULTS are, and leaves them as they are. -/
theorem act_withOutside (i : Instr) :
    ∀ act ∈ stepsOf i, ∀ s o, act (State.withOutside s o) = (act s).withOutside o := by
  cases i with
  | crcStep seed data =>
    simp only [stepsOf, crcStepSteps, List.forall_mem_singleton]
    exact fun _ _ => rfl
  | setAddr a8 =>
    simp only [stepsOf, setAddrSteps, List.forall_mem_singleton]
    exact setAddrAct_withOutside a8
  | probe =>
    simp only [stepsOf, probeSteps, List.forall_mem_cons]
    exact ⟨fun _ _ => rfl, finalEnd_withOutside, List.forall_mem_nil _⟩
  | readWord reg =>
    simp only [stepsOf, readWordSteps, List.forall_mem_cons]
    exact ⟨fun _ _ => rfl, fun _ _ => rfl, readSelect_withOutside, readRequest_withOutside, fun _ _ => rfl,
      fun _ _ => rfl, fun _ _ => rfl, readCheck_withOutside reg, List.forall_mem_nil _⟩
  | writeWord reg w =>
    simp only [stepsOf, writeWordSteps, List.forall_mem_cons]
    exact ⟨fun _ _ => rfl, fun _ _ => rfl, fun _ _ => rfl, fun _ _ => rfl, fun _ _ => rfl, fun _ _ => rfl,
      finalEnd_withOutside, List.forall_mem_nil _⟩
  | sleep =>
    simp only [stepsOf, sleepSteps, List.forall_mem_cons]
    exact ⟨fun _ _ => rfl, fun _ _ => rfl, fun _ _ => rfl, fun _ _ => rfl, fun _ _ => rfl, fun _ _ => rfl,
      sleepPark_withOutside, List.forall_mem_nil _⟩
  | wake =>
    simp only [stepsOf, wakeSteps, List.forall_mem_cons]
    exact ⟨fun _ _ => rfl, fun _ _ => rfl, fun _ _ => rfl, fun _ _ => rfl, fun _ _ => rfl, fun _ _ => rfl,
      fun _ _ => rfl, fun _ _ => rfl, fun _ _ => rfl, fun _ _ => rfl, List.forall_mem_nil _⟩

theorem act_outside {i : Instr} {act : SeqAct} (hact : act ∈ stepsOf i) (s : State) : (act s).outside = s.outside := by
  rw [show act s = (act s).withOutside s.outside from act_withOutside i act hact s s.outside]
  exact State.outside_withOutside _ _

theorem runSteps_outside (i : Instr) (fuel : Nat) (s : State) : (runSteps (stepsOf i) fuel s).outside = s.outside :=
  runSteps_keeps_of_acts (P := fun t => t.outside = s.outside) (fun _ hact t h => (act_outside hact t).trans h)
    (fun _ h => h) fuel rfl

theorem runSteps_faults (i : Instr) (fuel : Nat) (s : State) : (runSteps (stepsOf i) fuel s).faults = s.faults :=
  congrArg Outside.faults (runSteps_outside i fuel s)

/-! ### What a command may write -/

/-- The state without BUSY, OK, ERR, PHASE and FAULTS. -/
def State.withoutControl (s : State) : State :=
  { s with busy := false, ok := false, err := .none, phase := .idle, faults := [] }

/-- The state without what the command may write (R85, R89 to R92, R94, R95). -/
def untouchedBy : Instr → State → State
  | .crcStep _ _, s => { s.withoutControl with crc := 0#8 }
  | .setAddr _, s => { s.withoutControl with addr := 0#7 }
  | .probe, s => { s.withoutControl with bmStatus := 0#8, trace := [], draws := [], drawCount := 0 }
  | .readWord _, s =>
    { s.withoutControl with bmStatus := 0#8, rdata := 0#16, crc := 0#8, pecRx := 0#8, lsb := 0#8, msb := 0#8
                            trace := [], draws := [], drawCount := 0 }
  | .writeWord _ _, s =>
    { s.withoutControl with bmStatus := 0#8, crc := 0#8, trace := [], draws := [], drawCount := 0 }
  | .sleep, s =>
    { s.withoutControl with bmStatus := 0#8, crc := 0#8, trace := [], draws := [], drawCount := 0
                            parked := false, sclMode := .bus, sdaMode := .bus }
  | .wake, s =>
    { s.withoutControl with trace := [], draws := [], drawCount := 0
                            parked := false, sclMode := .bus, sdaMode := .bus }

theorem act_untouchedBy (i : Instr) : ∀ act ∈ stepsOf i, ∀ s, untouchedBy i (act s) = untouchedBy i s := by
  cases i with
  | crcStep seed data =>
    simp only [stepsOf, crcStepSteps, List.forall_mem_singleton]
    exact fun _ => rfl
  | setAddr a8 =>
    simp only [stepsOf, setAddrSteps, List.forall_mem_singleton, setAddrAct_eq]
    intro s; split <;> rfl
  | probe =>
    simp only [stepsOf, probeSteps, List.forall_mem_cons, finalEnd_eq]
    exact ⟨fun _ => rfl, fun _ => rfl, List.forall_mem_nil _⟩
  | readWord reg =>
    simp only [stepsOf, readWordSteps, List.forall_mem_cons, readSelect_eq, readRequest_eq, readCheck_eq]
    refine ⟨fun _ => rfl, fun _ => rfl, fun s => ?_, fun s => ?_, fun _ => rfl, fun _ => rfl, fun _ => rfl, fun s => ?_,
      List.forall_mem_nil _⟩ <;> split <;> rfl
  | writeWord reg w =>
    simp only [stepsOf, writeWordSteps, List.forall_mem_cons, finalEnd_eq]
    exact ⟨fun _ => rfl, fun _ => rfl, fun _ => rfl, fun _ => rfl, fun _ => rfl, fun _ => rfl, fun _ => rfl,
      List.forall_mem_nil _⟩
  | sleep =>
    simp only [stepsOf, sleepSteps, List.forall_mem_cons, sleepPark_eq]
    exact ⟨fun _ => rfl, fun _ => rfl, fun _ => rfl, fun _ => rfl, fun _ => rfl, fun _ => rfl, fun _ => rfl,
      List.forall_mem_nil _⟩
  | wake =>
    simp only [stepsOf, wakeSteps, List.forall_mem_cons]
    exact ⟨fun _ => rfl, fun _ => rfl, fun _ => rfl, fun _ => rfl, fun _ => rfl, fun _ => rfl, fun _ => rfl,
      fun _ => rfl, fun _ => rfl, fun _ => rfl, List.forall_mem_nil _⟩

/-! ### Going on and ending -/

/-- BUSY, OK, ERR and PHASE are the same: the command goes on. -/
structure SameControl (s t : State) : Prop where
  busy : t.busy = s.busy
  ok : t.ok = s.ok
  err : t.err = s.err
  phase : t.phase = s.phase

/-- The command has ended, with success or with an error (R99, R103). -/
structure Ended (t : State) : Prop where
  busy : t.busy = false
  phase : t.phase = .idle
  result : t.ok = true → t.err = .none

theorem ended_succeed (s : State) : Ended (succeed s) := ⟨rfl, rfl, fun _ => rfl⟩

theorem ended_raise (e : ErrKind) (s : State) : Ended (raise e s) := ⟨rfl, rfl, nofun⟩

theorem ended_finalEnd (s : State) : Ended (finalEnd s) := by
  rw [finalEnd, nakUnlessZero]
  split
  · exact ended_succeed _
  · exact ended_raise _ _

theorem ended_readCheck (reg : Byte) (s : State) : Ended (readCheck reg s) := by
  rw [readCheck]
  split
  · exact ended_succeed _
  · exact ended_raise _ _

theorem ended_setAddrAct (a8 : Byte) (s : State) : Ended (setAddrAct a8 s) := by
  rw [setAddrAct]
  split
  · exact ended_succeed _
  · exact ended_raise _ _

theorem ended_sleepPark (s : State) : Ended (sleepPark s) := by
  rw [sleepPark, nakUnlessZero]
  split
  · exact ended_succeed _
  · exact ended_raise _ _

theorem readSelect_control (s : State) : SameControl s (readSelect s) ∨ Ended (readSelect s) := by
  rw [readSelect_eq]
  split
  · exact .inl ⟨rfl, rfl, rfl, rfl⟩
  · exact .inr (ended_raise _ _)

theorem readRequest_control (s : State) : SameControl s (readRequest s) ∨ Ended (readRequest s) := by
  rw [readRequest_eq]
  split
  · exact .inl ⟨rfl, rfl, rfl, rfl⟩
  · exact .inr (ended_raise _ _)

theorem getLast_ends (i : Instr) : ∀ act ∈ (stepsOf i).getLast?, ∀ s, Ended (act s) := by
  intro act hact s
  cases i <;> obtain rfl := Option.some.inj hact
  case crcStep => exact ended_succeed _
  case setAddr a8 => exact ended_setAddrAct a8 s
  case probe => exact ended_finalEnd s
  case readWord reg => exact ended_readCheck reg s
  case writeWord => exact ended_finalEnd s
  case sleep => exact ended_sleepPark s
  case wake => exact ended_succeed _

theorem dropLast_control (i : Instr) :
    ∀ act ∈ (stepsOf i).dropLast, ∀ s, SameControl s (act s) ∨ Ended (act s) := by
  have goes {s t : State} (h : (t.busy, t.ok, t.err, t.phase) = (s.busy, s.ok, s.err, s.phase)) :
      SameControl s t ∨ Ended t := by
    simp only [Prod.mk.injEq] at h
    obtain ⟨hbusy, hok, herr, hphase⟩ := h
    exact .inl ⟨hbusy, hok, herr, hphase⟩
  cases i with
  | crcStep | setAddr => exact List.forall_mem_nil _
  | probe =>
    simp only [stepsOf, probeSteps, List.dropLast_cons_cons, List.dropLast_singleton, List.forall_mem_cons]
    exact ⟨fun _ => goes rfl, List.forall_mem_nil _⟩
  | readWord reg =>
    simp only [stepsOf, readWordSteps, List.dropLast_cons_cons, List.dropLast_singleton, List.forall_mem_cons]
    exact ⟨fun _ => goes rfl, fun _ => goes rfl, readSelect_control, readRequest_control, fun _ => goes rfl,
      fun _ => goes rfl, fun _ => goes rfl, List.forall_mem_nil _⟩
  | writeWord reg w =>
    simp only [stepsOf, writeWordSteps, List.dropLast_cons_cons, List.dropLast_singleton, List.forall_mem_cons]
    exact ⟨fun _ => goes rfl, fun _ => goes rfl, fun _ => goes rfl, fun _ => goes rfl, fun _ => goes rfl,
      fun _ => goes rfl, List.forall_mem_nil _⟩
  | sleep =>
    simp only [stepsOf, sleepSteps, List.dropLast_cons_cons, List.dropLast_singleton, List.forall_mem_cons]
    exact ⟨fun _ => goes rfl, fun _ => goes rfl, fun _ => goes rfl, fun _ => goes rfl, fun _ => goes rfl,
      fun _ => goes rfl, List.forall_mem_nil _⟩
  | wake =>
    simp only [stepsOf, wakeSteps, List.dropLast_cons_cons, List.dropLast_singleton, List.forall_mem_cons]
    exact ⟨fun _ => goes rfl, fun _ => goes rfl, fun _ => goes rfl, fun _ => goes rfl, fun _ => goes rfl,
      fun _ => goes rfl, fun _ => goes rfl, fun _ => goes rfl, fun _ => goes rfl, List.forall_mem_nil _⟩

/-- Every action goes on or ends the command, and the last one ends it. -/
theorem act_control {i : Instr} {n : Nat} {act : SeqAct} (hact : (stepsOf i)[n]? = some act) (s : State) :
    (n + 1 < (stepsOf i).length ∧ SameControl s (act s)) ∨ Ended (act s) := by
  obtain ⟨hn, hget⟩ := List.getElem?_eq_some_iff.mp hact
  by_cases hlast : n + 1 = (stepsOf i).length
  · refine .inr (getLast_ends i act ?_ s)
    rw [List.getLast?_eq_getElem?, ← hlast, Nat.add_sub_cancel, hact]
    rfl
  · have hinit : act ∈ (stepsOf i).dropLast := by
      refine List.mem_of_getElem? (i := n) ?_
      rw [List.getElem?_dropLast, if_pos (by omega), hact]
    exact (dropLast_control i act hinit s).imp_left fun hsame => ⟨by omega, hsame⟩

end Sys2Proof.Machine
end

section
/-! SUPPORT. Where a run of a command stands: ended, or before a STEP of its list (10_state.md R39). -/

namespace Sys2Proof.Machine

variable {i : Instr} {n : BitVec 4} {s : State}

/-- The command has ended and `End` holds, or it runs and `Run` holds of its STEP. -/
def Stands (i : Instr) (Run : Nat → State → Prop) (End : State → Prop) (s : State) : Prop :=
  (s.phase = .idle ∧ End s) ∨ ∃ n, s.phase = .run i n ∧ Run n.toNat s

theorem length_stepsOf_lt (i : Instr) : (stepsOf i).length < 16 := by
  cases i <;> exact Nat.lt_of_succ_le (Nat.le_of_ble_eq_true rfl)

/-- STEP does not wrap before the end of a list. -/
theorem toNat_add_one (hn : n.toNat < (stepsOf i).length) : (n + 1#4).toNat = n.toNat + 1 := by
  have := length_stepsOf_lt i
  simp only [BitVec.toNat_add, BitVec.toNat_ofNat]
  omega

theorem bump_phase_of_run (hphase : s.phase = .run i n) : s.bump.phase = .run i (n + 1#4) := by
  rw [State.bump_phase, hphase]; rfl

/-- A STEP past the end of the list does nothing (log entry 17). -/
theorem seqTick_of_length_le (hphase : s.phase = .run i n) (hn : (stepsOf i).length ≤ n.toNat) :
    seqTick (stepsOf i) s = s := by
  simp [seqTick, hphase, hn]

theorem seqTick_of_idle (steps : List SeqAct) (hphase : s.phase = .idle) : seqTick steps s = s := by
  simp [seqTick, hphase]

/-- The induction over a run, with its STEP: each action ends the command in a state with `End`, or goes on to the next
STEP with `Run`. -/
theorem runSteps_stands {Run : Nat → State → Prop} {End : State → Prop}
    (acts : ∀ (n : Nat) (act : SeqAct) (s : State), (stepsOf i)[n]? = some act → s.phase ≠ .idle →
      Run n s → (SameControl s (act s) ∧ Run (n + 1) (act s).bump) ∨ (Ended (act s) ∧ End (act s)))
    (fuel : Nat) (h : Stands i Run End s) : Stands i Run End (runSteps (stepsOf i) fuel s) := by
  refine runSteps_keeps (stepsOf i) (fun s h => ?_) fuel s h
  rcases h with ⟨hidle, hend⟩ | ⟨n, hphase, hrun⟩
  · rw [seqTick_of_idle _ hidle]
    exact .inl ⟨hidle, hend⟩
  · cases hact : (stepsOf i)[n.toNat]? with
    | none =>
      rw [seqTick_of_length_le hphase (List.getElem?_eq_none_iff.mp hact)]
      exact .inr ⟨n, hphase, hrun⟩
    | some act =>
      rw [seqTick_of_get _ hphase hact]
      rcases acts n.toNat act s hact (by simp [hphase]) hrun with ⟨hsame, hrun'⟩ | ⟨hended, hend⟩
      · obtain ⟨hn, -⟩ := List.getElem?_eq_some_iff.mp hact
        refine .inr ⟨n + 1#4, bump_phase_of_run (hsame.phase.trans hphase), ?_⟩
        rwa [toNat_add_one hn]
      · rw [bump_of_idle hended.phase]
        exact .inl ⟨hended.phase, hend⟩

end Sys2Proof.Machine
end

section
/-! SUPPORT. The invariant of the block, at rest and at each STEP of a command (10_state.md sections 3 to 5). -/

namespace Sys2Proof.Machine

variable {i : Instr} {s : State}

/-! ### Line modes -/

/-- The line modes and PARKED before STEP `n` of a command. -/
def linesAt (n : Nat) (s : State) : Instr → Bool
  | .sleep => linesInSleep n s
  | .wake => linesInWake n s
  | .crcStep _ _ | .setAddr _ => linesAtRest s
  | .probe | .readWord _ | .writeWord _ _ => !s.parked && linesAtRest s

theorem linesAgree_of_idle (hphase : s.phase = .idle) : linesAgree s = linesAtRest s := by
  simp [linesAgree, hphase]

theorem linesAgree_of_run {n : BitVec 4} (hphase : s.phase = .run i n) : linesAgree s = linesAt n.toNat s i := by
  cases i <;> simp [linesAgree, linesAt, hphase]

/-- The line modes and PARKED are the same. -/
structure SameLines (s t : State) : Prop where
  scl : t.sclMode = s.sclMode
  sda : t.sdaMode = s.sdaMode
  parked : t.parked = s.parked

theorem sameLines_of_untouchedBy {t : State} (hsleep : i ≠ .sleep) (hwake : i ≠ .wake)
    (h : untouchedBy i t = untouchedBy i s) : SameLines s t := by
  have same {α : Type} (field : State → α) : field (untouchedBy i t) = field (untouchedBy i s) := congrArg field h
  cases i with
  | sleep => exact (hsleep rfl).elim
  | wake => exact (hwake rfl).elim
  | _ => exact ⟨same State.sclMode, same State.sdaMode, same State.parked⟩

theorem SameLines.atRest {t : State} (h : SameLines s t) : linesAtRest t = linesAtRest s := by
  simp only [linesAtRest, h.scl, h.sda, h.parked]

theorem SameLines.linesAt {t : State} (h : SameLines s t) (n m : Nat) (hsleep : i ≠ .sleep) (hwake : i ≠ .wake) :
    linesAt m t i = linesAt n s i := by
  cases i with
  | sleep => exact (hsleep rfl).elim
  | wake => exact (hwake rfl).elim
  | _ => simp only [Machine.linesAt, h.atRest, h.parked]

theorem linesAtRest_of_linesAt {n : Nat} (hsleep : i ≠ .sleep) (hwake : i ≠ .wake) (h : linesAt n s i = true) :
    linesAtRest s = true := by
  cases i with
  | sleep => exact (hsleep rfl).elim
  | wake => exact (hwake rfl).elim
  | _ => simp_all [linesAt]

/-- SLEEP moves the lines at STEP 5 and STEP 6 (R94). -/
theorem linesInSleep_act {n : Nat} {act : SeqAct} (hact : sleepSteps[n]? = some act) (h : linesInSleep n s = true) :
    ((act s).phase = s.phase ∧ linesInSleep (n + 1) (act s) = true) ∨
      ((act s).phase = .idle ∧ linesAtRest (act s) = true) := by
  match n, hact with
  | 0, rfl | 1, rfl | 2, rfl | 3, rfl | 4, rfl => exact .inl ⟨rfl, h⟩
  | 5, rfl =>
    refine .inl ⟨rfl, ?_⟩
    simp_all [linesInSleep, linesAre, gpio, GpioMode.toLineMode]
  | 6, rfl =>
    refine .inr ⟨sleepPark_phase s, ?_⟩
    simp_all [linesInSleep, linesAre, sleepPark_eq, linesAtRest]

/-- WAKE moves the lines at STEPs 1, 2, 4, 6, 8 and 9 (R95). -/
theorem linesInWake_act {n : Nat} {act : SeqAct} (hact : wakeSteps[n]? = some act) (h : linesInWake n s = true) :
    ((act s).phase = s.phase ∧ linesInWake (n + 1) (act s) = true) ∨
      ((act s).phase = .idle ∧ linesAtRest (act s) = true) := by
  match n, hact with
  | 0, rfl | 3, rfl | 5, rfl | 7, rfl => exact .inl ⟨rfl, h⟩
  | 1, rfl =>
    refine .inl ⟨rfl, ?_⟩
    cases hp : s.parked <;> simp_all [linesInWake, linesAtRest, linesAre, gpio, GpioMode.toLineMode]
  | 2, rfl | 4, rfl | 6, rfl | 8, rfl =>
    refine .inl ⟨rfl, ?_⟩
    simp_all [linesInWake, linesAre, gpio, GpioMode.toLineMode]
  | 9, rfl => exact .inr ⟨rfl, rfl⟩

/-- Of every command: the lines go on as its next STEP has them, or it ends with the lines at rest. -/
theorem linesAt_act {n : Nat} {act : SeqAct} (hact : (stepsOf i)[n]? = some act) (h : linesAt n s i = true) :
    ((act s).phase = s.phase ∧ linesAt (n + 1) (act s) i = true) ∨
      ((act s).phase = .idle ∧ linesAtRest (act s) = true) := by
  by_cases hsleep : i = .sleep
  · subst hsleep
    exact linesInSleep_act hact h
  by_cases hwake : i = .wake
  · subst hwake
    exact linesInWake_act hact h
  have hlines := sameLines_of_untouchedBy hsleep hwake (act_untouchedBy i act (List.mem_of_getElem? hact) s)
  rcases act_control hact s with ⟨-, hsame⟩ | hended
  · exact .inl ⟨hsame.phase, (hlines.linesAt n (n + 1) hsleep hwake).trans h⟩
  · exact .inr ⟨hended.phase, hlines.atRest.trans (linesAtRest_of_linesAt hsleep hwake h)⟩

/-! ### ADDR -/

/-- Within the range of SET_ADDR the low seven bits are not 0 (R35, R89). -/
theorem lowSeven_ne_zero {a8 : Byte} (h : legalAddr a8 = true) : lowSeven a8 ≠ 0#7 := by
  obtain ⟨hlow, hhigh⟩ := (legalAddr_iff a8).mp h
  intro hzero
  have htoNat : (lowSeven a8).toNat = a8.toNat := by
    simp only [lowSeven, BitVec.extractLsb'_toNat, Nat.shiftRight_zero]
    omega
  rw [hzero] at htoNat
  exact absurd htoNat (by simp; omega)

theorem setAddrAct_addr_ne_zero (a8 : Byte) (h : s.addr ≠ 0#7) : (setAddrAct a8 s).addr ≠ 0#7 := by
  rw [setAddrAct_eq]
  split
  · exact lowSeven_ne_zero ‹_›
  · exact h

theorem act_addr_ne_zero {act : SeqAct} (hact : act ∈ stepsOf i) (h : s.addr ≠ 0#7) : (act s).addr ≠ 0#7 := by
  obtain ⟨-, -, -, haddr | ⟨a8, rfl⟩⟩ := act_issues i act hact s
  · rwa [haddr]
  · obtain rfl := List.mem_singleton.mp hact
    exact setAddrAct_addr_ne_zero a8 h

/-! ### The invariant -/

/-- `State.inv` as a proposition. -/
theorem inv_iff (s : State) : s.inv = true ↔
    s.addr ≠ 0#7 ∧ (s.faults = [] → s.phase.isIdle = !s.busy) ∧ stepInRange s = true ∧
      (s.busy = true → s.ok = false ∧ s.err = .none) ∧ (s.ok = true → s.err = .none) ∧ linesAgree s = true := by
  simp only [State.inv, idleIffNotBusy, resultBits, Bool.and_eq_true, Bool.or_eq_true, bne_iff_ne, beq_iff_eq,
    Bool.not_eq_true', List.isEmpty_eq_false_iff, and_assoc, imp_iff_not_or, Bool.not_eq_true, ne_eq]

/-- The invariant of a block that runs a command, FAULTS being empty. -/
structure RunInv (i : Instr) (n : Nat) (s : State) : Prop where
  faults : s.faults = []
  busy : s.busy = true
  ok : s.ok = false
  err : s.err = .none
  addr : s.addr ≠ 0#7
  step : n < (stepsOf i).length
  lines : linesAt n s i = true

/-- The invariant of a block at rest, FAULTS being empty. -/
structure RestInv (s : State) : Prop where
  faults : s.faults = []
  busy : s.busy = false
  result : s.ok = true → s.err = .none
  addr : s.addr ≠ 0#7
  lines : linesAtRest s = true

theorem inv_of_stands (h : Stands i (RunInv i) RestInv s) : s.inv = true := by
  rw [inv_iff]
  rcases h with ⟨hphase, hrest⟩ | ⟨n, hphase, hrun⟩
  · rw [linesAgree_of_idle hphase]
    refine ⟨hrest.addr, fun _ => ?_, ?_, ?_, hrest.result, hrest.lines⟩
    · simp [hphase, hrest.busy, Phase.isIdle]
    · simp [stepInRange, hphase]
    · simp [hrest.busy]
  · rw [linesAgree_of_run hphase]
    refine ⟨hrun.addr, fun _ => ?_, ?_, fun _ => ⟨hrun.ok, hrun.err⟩, fun _ => hrun.err, hrun.lines⟩
    · simp [hphase, hrun.busy, Phase.isIdle]
    · simp [stepInRange, hphase, hrun.step]

theorem runInv_of_inv {n : BitVec 4} (hphase : s.phase = .run i n) (hfaults : s.faults = []) (hinv : s.inv = true) :
    RunInv i n.toNat s := by
  obtain ⟨haddr, hidle, hstep, hrunning, -, hlines⟩ := (inv_iff s).mp hinv
  have hbusy : s.busy = true := by simpa [hphase, Phase.isIdle] using hidle hfaults
  obtain ⟨hok, herr⟩ := hrunning hbusy
  exact ⟨hfaults, hbusy, hok, herr, haddr, by simpa [stepInRange, hphase] using hstep,
    linesAgree_of_run hphase ▸ hlines⟩

theorem restInv_of_inv (hbusy : s.busy = false) (hfaults : s.faults = []) (hinv : s.inv = true) :
    s.phase = .idle ∧ RestInv s := by
  obtain ⟨haddr, hidle, -, -, hresult, hlines⟩ := (inv_iff s).mp hinv
  have hphase : s.phase = .idle := by
    cases hp : s.phase <;> simp_all [Phase.isIdle]
  exact ⟨hphase, hfaults, hbusy, hresult, haddr, linesAgree_of_idle hphase ▸ hlines⟩

theorem linesAt_zero (hlines : linesAtRest s = true) (hbus : usesBus i = true → s.parked = false) :
    linesAt 0 s i = true := by
  cases i <;> simp_all [linesAt, linesInWake, linesInSleep, linesAre, linesAtRest, usesBus]

/-- The accepted command starts with the invariant of its STEP 0. -/
theorem RestInv.enter (h : RestInv s) (hbus : usesBus i = true → s.parked = false) :
    RunInv i 0 (s.accepted.enter i) :=
  ⟨h.faults, rfl, rfl, rfl, h.addr, by cases i <;> exact Nat.succ_pos _,
    linesAt_zero (s := s.accepted.enter i) h.lines hbus⟩

/-- Every action keeps the invariant, and the run with it. -/
theorem runSteps_inv (fuel : Nat) (h : Stands i (RunInv i) RestInv s) :
    (runSteps (stepsOf i) fuel s).inv = true := by
  refine inv_of_stands (runSteps_stands (fun n act s hact hrunning h => ?_) fuel h)
  have hmem := List.mem_of_getElem? hact
  have hfaults : (act s).faults = [] := (congrArg Outside.faults (act_outside hmem s)).trans h.faults
  have haddr := act_addr_ne_zero hmem h.addr
  rcases act_control hact s with ⟨hn, hsame⟩ | hended
  · refine .inl ⟨hsame, hfaults, hsame.busy.trans h.busy, hsame.ok.trans h.ok, hsame.err.trans h.err, haddr, hn, ?_⟩
    rcases linesAt_act hact h.lines with ⟨-, hlines⟩ | ⟨hidle, -⟩
    · exact hlines
    · exact absurd (hsame.phase.symm.trans hidle) hrunning
  · refine .inr ⟨hended, hfaults, hended.busy, hended.result, haddr, ?_⟩
    rcases linesAt_act hact h.lines with ⟨hphase, -⟩ | ⟨-, hlines⟩
    · exact absurd (hphase.symm.trans hended.phase) hrunning
    · exact hlines

theorem BlockMove.inv {t : State} (h : BlockMove s t) (hfaults : s.faults = []) (hinv : s.inv = true) :
    t.inv = true := by
  obtain ⟨haddr, hidle, hstep, hrunning, hresult, hlines⟩ := (inv_iff s).mp hinv
  cases h with
  | stay => exact hinv
  | fault f => exact (inv_iff _).mpr ⟨haddr, by simp [hfaults], hstep, hrunning, hresult, hlines⟩
  | parkedFault => exact (inv_iff _).mpr ⟨haddr, by simp [hfaults], hstep, fun _ => ⟨rfl, rfl⟩, nofun, hlines⟩
  | illegal hbusy =>
    exact (inv_iff _).mpr ⟨haddr, hidle, hstep, fun h => by simp [hbusy] at h, nofun, hlines⟩
  | reset => exact (inv_iff _).mpr ⟨(by decide : Config.defaultAddr ≠ 0#7), fun _ => rfl, rfl, nofun, nofun, rfl⟩
  | command i hbusy hbus =>
    obtain ⟨-, hrest⟩ := restInv_of_inv hbusy hfaults hinv
    exact runSteps_inv maxSteps (.inr ⟨0#4, rfl, hrest.enter hbus⟩)
  | goOn i n hphase => exact runSteps_inv maxSteps (.inr ⟨n, hphase, runInv_of_inv hphase hfaults hinv⟩)

/-- The invariant does not speak of the host. -/
theorem SameBlock.inv_iff {t : State} (h : SameBlock s t) : t.inv = true ↔ s.inv = true := by
  obtain ⟨_, _, _, rfl⟩ := h
  exact Iff.rfl

end Sys2Proof.Machine
end

section
/-! The statements on the invariant (O42, O43). -/

namespace Sys2Proof.Machine

/-- Settles O42: each move of the block keeps the invariant, and the host's record is no part of it. -/
theorem invariantKeptByStep : Obligations.InvariantKeptByStep := by
  intro s t hinv h
  obtain ⟨-, hfaults, -⟩ := step_cases h
  obtain ⟨u, v, hsu, huv, hvt⟩ := step_blockMove h
  have hfaults' : u.faults = [] := by
    obtain ⟨_, _, _, rfl⟩ := hsu
    exact hfaults
  exact hvt.inv_iff.mpr (huv.inv hfaults' (hsu.inv_iff.mpr hinv))

/-- Settles O43, by evaluation of the invariant on the reset state. -/
theorem invariantAtReset : Obligations.InvariantAtReset := rfl

end Sys2Proof.Machine
end

section
/-! SUPPORT. What a command leaves unchanged and which events it adds, whenever it answers a next state: suspended and
faulted states included. -/

namespace Sys2Proof.Machine

variable {i : Instr} {s t : State}

theorem exec_untouchedBy (h : exec i s = .next t) : untouchedBy i t = untouchedBy i s := by
  have bump (u : State) : untouchedBy i u.bump = untouchedBy i u := by cases i <;> rfl
  rcases exec_cases h with ⟨-, rfl⟩ | ⟨-, -, -, rfl⟩ | ⟨-, -, rfl⟩
  · cases i <;> rfl
  · cases i <;> rfl
  · refine runSteps_keeps_of_acts (P := fun u => untouchedBy i u = untouchedBy i s)
      (fun act hact u hu => (act_untouchedBy i act hact u).trans hu) (fun u hu => (bump u).trans hu) maxSteps ?_
    cases i <;> rfl

theorem exec_issues (h : exec i s = .next t) : IssuesFor i s t := by
  rcases exec_cases h with ⟨-, rfl⟩ | ⟨-, -, -, rfl⟩ | ⟨-, -, rfl⟩
  · exact .none rfl rfl rfl (.inl rfl)
  · exact .none rfl rfl rfl (.inl rfl)
  · have haccept : IssuesFor i s (s.accepted.enter i) := .none rfl rfl rfl (.inl rfl)
    exact haccept.trans (runSteps_issues i maxSteps _)

theorem exec_hostSideSame (h : exec i s = .next t) : hostSideSame s t := by
  have same {α : Type} (field : State → α) : field (untouchedBy i t) = field (untouchedBy i s) :=
    congrArg field (exec_untouchedBy h)
  cases i <;> exact ⟨same State.timing, same State.program, same State.hpc, same State.hostLog,
    same State.freeReadCount⟩

/-! ### SET_ADDR -/

/-- A SET_ADDR has succeeded. -/
structure AddrLoaded (a8 : Byte) (s : State) : Prop where
  legal : legalAddr a8 = true
  addr : s.addr = lowSeven a8
  ok : s.ok = true
  err : s.err = .none
  busy : s.busy = false

theorem exec_setAddr_addr {a8 : Byte} (h : exec (.setAddr a8) s = .next t) : t.addr = s.addr ∨ AddrLoaded a8 t := by
  rcases exec_cases h with ⟨-, rfl⟩ | ⟨-, hbus, -⟩ | ⟨-, -, rfl⟩
  · exact .inl rfl
  · cases hbus
  · have stands := runSteps_stands (i := .setAddr a8) (Run := fun _ u => u.addr = s.addr)
      (End := fun u => u.addr = s.addr ∨ AddrLoaded a8 u) (fun n act u hact _ haddr => ?_) maxSteps
      (s := s.accepted.enter (.setAddr a8)) (.inr ⟨0#4, rfl, rfl⟩)
    · rcases stands with ⟨-, hend⟩ | ⟨_, -, haddr⟩
      · exact hend
      · exact .inl haddr
    · obtain rfl := List.mem_singleton.mp (List.mem_of_getElem? hact)
      refine .inr ⟨ended_setAddrAct a8 u, ?_⟩
      rw [setAddrAct_eq]
      split
      · exact .inr ⟨‹_›, rfl, rfl, rfl, rfl⟩
      · exact .inl haddr

/-! ### READ_WORD -/

/-- PEC and the temporaries are the same. -/
def SamePec (s t : State) : Prop := t.pecRx = s.pecRx ∧ t.crc = s.crc ∧ t.lsb = s.lsb ∧ t.msb = s.msb

/-- A READ_WORD begun in `s₀` is before STEP `n`: RDATA is kept, and up to STEP 4 PEC and the temporaries. -/
def ReadRunning (s₀ : State) (n : Nat) (s : State) : Prop :=
  s.err = .none ∧ s.rdata = s₀.rdata ∧ (n ≤ 4 → SamePec s₀ s)

/-- The word of a READ_WORD that succeeded is in RDATA. -/
structure WordRead (s : State) : Prop where
  ok : s.ok = true
  err : s.err = .none
  busy : s.busy = false
  pec : s.crc = s.pecRx
  word : s.rdata = wordOf s.msb s.lsb

/-- A READ_WORD begun in `s₀` left RDATA as it was or read the word, and NAK and SHORT_READ left PEC and the
temporaries. -/
def ReadLeft (s₀ s : State) : Prop :=
  (s.rdata = s₀.rdata ∨ WordRead s) ∧ (s.err = .nak ∨ s.err = .shortRead → SamePec s₀ s)

theorem readWord_act {reg : Byte} {s₀ : State} {n : Nat} {act : SeqAct}
    (hact : (stepsOf (.readWord reg))[n]? = some act) (h : ReadRunning s₀ n s) :
    (SameControl s (act s) ∧ ReadRunning s₀ (n + 1) (act s).bump) ∨ (Ended (act s) ∧ ReadLeft s₀ (act s)) := by
  obtain ⟨herr, hrdata, hpec⟩ := h
  match n, hact with
  | 0, rfl | 1, rfl => exact .inl ⟨⟨rfl, rfl, rfl, rfl⟩, herr, hrdata, fun _ => hpec (by omega)⟩
  | 2, rfl =>
    rw [readSelect_eq]
    split
    · exact .inl ⟨⟨rfl, rfl, rfl, rfl⟩, herr, hrdata, fun _ => hpec (by omega)⟩
    · exact .inr ⟨ended_raise _ _, .inl hrdata, fun _ => hpec (by omega)⟩
  | 3, rfl =>
    rw [readRequest_eq]
    split
    · exact .inl ⟨⟨rfl, rfl, rfl, rfl⟩, herr, hrdata, fun _ => hpec (by omega)⟩
    · exact .inr ⟨ended_raise _ _, .inl hrdata, fun _ => hpec (by omega)⟩
  | 4, rfl | 5, rfl | 6, rfl => exact .inl ⟨⟨rfl, rfl, rfl, rfl⟩, herr, hrdata, fun hn => absurd hn (by omega)⟩
  | 7, rfl =>
    refine .inr ⟨ended_readCheck reg s, ?_⟩
    rw [readCheck_eq]
    split
    · exact ⟨.inr ⟨rfl, rfl, rfl, ‹_›, rfl⟩, by simp⟩
    · exact ⟨.inl hrdata, by simp⟩

theorem exec_readWord_left {reg : Byte} (h : exec (.readWord reg) s = .next t) : ReadLeft s t := by
  rcases exec_cases h with ⟨-, rfl⟩ | ⟨-, -, -, rfl⟩ | ⟨-, -, rfl⟩
  · exact ⟨.inl rfl, fun _ => ⟨rfl, rfl, rfl, rfl⟩⟩
  · exact ⟨.inl rfl, fun _ => ⟨rfl, rfl, rfl, rfl⟩⟩
  · have begun : ReadRunning s 0 (s.accepted.enter (.readWord reg)) := ⟨rfl, rfl, fun _ => ⟨rfl, rfl, rfl, rfl⟩⟩
    rcases runSteps_stands (fun n act u hact _ => readWord_act hact) maxSteps
      (.inr ⟨0#4, rfl, begun⟩) with ⟨-, hend⟩ | ⟨n, -, herr, hrdata, -⟩
    · exact hend
    · exact ⟨.inl hrdata, by simp [herr]⟩

/-! ### Delays -/

theorem delayTotal_append (es es' : List Event) : delayTotal (es ++ es') = delayTotal es + delayTotal es' := by
  induction es with
  | nil => simp [delayTotal]
  | cons e es ih => cases e <;> simp [delayTotal, ih, Nat.add_assoc]

theorem delayTotal_eq_zero {es : List Event} (h : ∀ ms, Event.delay ms ∉ es) : delayTotal es = 0 := by
  induction es with
  | nil => rfl
  | cons e es ih =>
    have hrest : delayTotal es = 0 := ih fun ms hms => h ms (List.mem_cons_of_mem e hms)
    cases e with
    | delay ms => exact absurd List.mem_cons_self (h ms)
    | _ => exact hrest

/-! ### Faults -/

/-- A move of the block that puts a fault into FAULTS does nothing but record it and, at most, accept the command. -/
theorem BlockMove.recordFault_of_faults (h : BlockMove s t) (hs : s.faults = []) (ht : t.faults ≠ []) :
    (∃ f, t = s.recordFault f) ∨ t = s.accepted.recordFault .busWhileParked := by
  cases h with
  | stay | illegal | reset => exact absurd hs ht
  | fault f => exact .inl ⟨f, rfl⟩
  | parkedFault => exact .inr rfl
  | command i => exact absurd ((runSteps_faults i maxSteps (s.accepted.enter i)).trans hs) ht
  | goOn i => exact absurd ((runSteps_faults i maxSteps _).trans hs) ht

end Sys2Proof.Machine
end

section
/-! The frames of the commands (O51 to O57). -/

namespace Sys2Proof.Machine

/-- Settles O51: the listed fields are none of those CRC_STEP may write. -/
theorem crcStepFrame : Obligations.CrcStepFrame := by
  intro seed data s t h
  have same {α : Type} (field : State → α) := congrArg field (exec_untouchedBy h)
  exact ⟨same State.parked, same State.bmStatus, same State.rdata, same State.addr, same State.pecRx,
    same State.sclMode, same State.sdaMode, same State.lsb, same State.msb, same State.trace, same State.draws,
    same State.drawCount, exec_hostSideSame h⟩

/-- Settles O52: the listed fields are none of those SET_ADDR may write. -/
theorem setAddrFrame : Obligations.SetAddrFrame := by
  intro a8 s t h
  have same {α : Type} (field : State → α) := congrArg field (exec_untouchedBy h)
  exact ⟨same State.parked, same State.bmStatus, same State.rdata, same State.crc, same State.pecRx,
    same State.sclMode, same State.sdaMode, same State.lsb, same State.msb, same State.trace, same State.draws,
    same State.drawCount, exec_hostSideSame h⟩

/-- Settles O53: the listed fields are none of those PROBE may write. -/
theorem probeFrame : Obligations.ProbeFrame := by
  intro s t h
  have same {α : Type} (field : State → α) := congrArg field (exec_untouchedBy h)
  exact ⟨same State.parked, same State.rdata, same State.addr, same State.crc, same State.pecRx, same State.sclMode,
    same State.sdaMode, same State.lsb, same State.msb, exec_hostSideSame h⟩

/-- Settles O54: the fields READ_WORD never writes, and those it writes only as far as its STEPs ran. -/
theorem readWordFrame : Obligations.ReadWordFrame := by
  intro reg s t h
  have same {α : Type} (field : State → α) := congrArg field (exec_untouchedBy h)
  obtain ⟨hrdata, hpec⟩ := exec_readWord_left h
  exact ⟨same State.parked, same State.addr, same State.sclMode, same State.sdaMode, exec_hostSideSame h,
    hrdata.imp_right WordRead.ok, hpec⟩

/-- Settles O55: the listed fields are none of those WRITE_WORD may write. -/
theorem writeWordFrame : Obligations.WriteWordFrame := by
  intro reg w s t h
  have same {α : Type} (field : State → α) := congrArg field (exec_untouchedBy h)
  exact ⟨same State.parked, same State.rdata, same State.addr, same State.pecRx, same State.sclMode,
    same State.sdaMode, same State.lsb, same State.msb, exec_hostSideSame h⟩

/-- Settles O56: the listed fields are none of those SLEEP may write. -/
theorem sleepFrame : Obligations.SleepFrame := by
  intro s t h
  have same {α : Type} (field : State → α) := congrArg field (exec_untouchedBy h)
  exact ⟨same State.rdata, same State.addr, same State.pecRx, same State.lsb, same State.msb, exec_hostSideSame h⟩

/-- Settles O57: the listed fields are none of those WAKE may write. -/
theorem wakeFrame : Obligations.WakeFrame := by
  intro s t h
  have same {α : Type} (field : State → α) := congrArg field (exec_untouchedBy h)
  exact ⟨same State.bmStatus, same State.rdata, same State.addr, same State.crc, same State.pecRx, same State.lsb,
    same State.msb, exec_hostSideSame h⟩

end Sys2Proof.Machine
end

section
/-! The statements on who writes and issues what (O20, O25, O26, O46 to O50). -/

namespace Sys2Proof.Machine

/-- Settles O20: the delays of WAKE add up, and no other command may issue one. -/
theorem onlyWakeDelays : Obligations.OnlyWakeDelays := by
  refine ⟨fun s hbusy hwaits htiming => ⟨_, exec_wake_eq hbusy hwaits, ?_⟩, fun i s t hwake h => ?_⟩
  · simp only [delayTotal_append, delayTotal]
    simp only [Timing.wf, Bool.and_eq_true, decide_eq_true_eq] at htiming
    refine ⟨by omega, by omega, fun hdefault => ?_⟩
    simp [hdefault, Timing.default]
  · obtain ⟨es, hes, hmay, -⟩ := exec_issues h
    have hnone : delayTotal es = 0 := delayTotal_eq_zero fun ms hms => hwake (wake_of_mayIssue_delay (hmay _ hms))
    rw [hes.trace, delayTotal_append, hnone, Nat.add_zero]

/-- Settles O46: a command may issue no transaction to another address. -/
theorem eventsAreAddressedToAddr : Obligations.EventsAreAddressedToAddr := by
  intro i s t h
  obtain ⟨es, hes, hmay, -⟩ := exec_issues h
  exact ⟨es, hes.trace, fun e he => addressedTo_of_mayIssue (hmay e he)⟩

/-- Settles O47: every other command keeps ADDR, and SET_ADDR writes it as it succeeds. -/
theorem onlySetAddrWritesAddr : Obligations.OnlySetAddrWritesAddr := by
  intro i s t h hne
  obtain ⟨-, -, -, hsame | ⟨a8, rfl⟩⟩ := exec_issues h
  · exact absurd hsame hne
  · rcases exec_setAddr_addr h with hsame | hloaded
    · exact absurd hsame hne
    · obtain ⟨hlow, hhigh⟩ := (legalAddr_iff a8).mp hloaded.legal
      exact ⟨a8, rfl, hlow, hhigh, hloaded.addr, hloaded.ok, hloaded.err, hloaded.busy⟩

/-- Settles O48: every other command keeps RDATA, and READ_WORD writes it as it succeeds. -/
theorem onlyReadWordWritesRdata : Obligations.OnlyReadWordWritesRdata := by
  intro i s t h hne
  have same {α : Type} (field : State → α) := congrArg field (exec_untouchedBy h)
  cases i with
  | readWord reg =>
    obtain ⟨hsame | hread, -⟩ := exec_readWord_left h
    · exact absurd hsame hne
    · exact ⟨reg, rfl, hread.ok, hread.err, hread.busy, hread.pec, hread.word⟩
  | _ => exact absurd (same State.rdata) hne

/-- Settles O49: no other command may write LINES or PARKED or issue a Gpio event. -/
theorem onlySleepAndWakeMoveLines : Obligations.OnlySleepAndWakeMoveLines := by
  intro i s t hsleep hwake h
  have hlines := sameLines_of_untouchedBy hsleep hwake (exec_untouchedBy h)
  obtain ⟨es, hes, hmay, -⟩ := exec_issues h
  refine ⟨hlines.scl, hlines.sda, hlines.parked, es, hes.trace, fun line mode hgpio => ?_⟩
  rcases sleep_or_wake_of_mayIssue_gpio (hmay _ hgpio) with hi | hi
  · exact hsleep hi
  · exact hwake hi

/-- Settles O50: a bus command is not carried out, and CRC_STEP and SET_ADDR write no trace. -/
theorem noEventWhileParkedButWake : Obligations.NoEventWhileParkedButWake := by
  intro i s t hparked hwake h
  have same {α : Type} (field : State → α) := congrArg field (exec_untouchedBy h)
  rcases exec_cases h with ⟨-, rfl⟩ | ⟨-, -, -, rfl⟩ | ⟨-, hbus, -⟩
  · rfl
  · rfl
  · rw [hparked] at hbus
    cases i with
    | crcStep | setAddr => exact same State.trace
    | wake => exact absurd rfl hwake
    | probe | readWord | writeWord | sleep => exact absurd (hbus rfl) (by simp)

/-- Settles O25: the parked check stops exactly the bus commands, and the steps of a command record no fault. -/
theorem legalCommandsWhileParked : Obligations.LegalCommandsWhileParked := by
  intro i s t hbusy hparked hfaults h
  have hlegal : usesBus i = false ↔ i = .wake ∨ (∃ seed data, i = .crcStep seed data) ∨ ∃ a8, i = .setAddr a8 := by
    cases i <;> simp [usesBus]
  rw [← hlegal]
  rcases exec_cases h with ⟨hbusy', -⟩ | ⟨-, hbus, -, rfl⟩ | ⟨-, hbus, rfl⟩
  · simp [hbusy] at hbusy'
  · simp [hbus, hfaults]
  · have hkept := (runSteps_faults i maxSteps (s.accepted.enter i)).trans hfaults
    simpa [hkept, hparked] using hbus

/-- Settles O26: the move that records the fault is the record and, at most, the acceptance. -/
theorem faultStepPerformsNothing : Obligations.FaultStepPerformsNothing := by
  intro s t h hfault
  obtain ⟨-, hnone, -⟩ := step_cases h
  obtain ⟨u, v, ⟨_, _, _, rfl⟩, huv, ⟨_, _, _, rfl⟩⟩ := step_blockMove h
  rcases huv.recordFault_of_faults hnone hfault with ⟨f, rfl⟩ | rfl
  · exact ⟨rfl, rfl, rfl, rfl, rfl, rfl, rfl, rfl, rfl, rfl, rfl, rfl⟩
  · exact ⟨rfl, rfl, rfl, rfl, rfl, rfl, rfl, rfl, rfl, rfl, rfl, rfl⟩

end Sys2Proof.Machine
end

section
/-! SUPPORT. A command that the host does not interrupt, carried out state by state (10_state.md R39). -/

namespace Sys2Proof.Machine

variable {i : Instr} {n : Nat} {s₀ s : State}

/-- Acceptance of a command that is neither written while BUSY = 1 nor stopped by the parked check (R99). -/
theorem exec_of_accepted (hbusy : s.busy = false) (hbus : usesBus i = true → s.parked = false) :
    exec i s = .next (runSteps (stepsOf i) maxSteps (s.accepted.enter i)) := by
  obtain ⟨t, ht⟩ := exec_isNext i s
  rcases exec_cases ht with ⟨h, -⟩ | ⟨-, hbus', hparked, -⟩ | ⟨-, -, rfl⟩
  · simp [hbusy] at h
  · simp [hbus hbus'] at hparked
  · exact ht

/-- A command of which only the last action ends it carries all of them out in turn. -/
theorem exec_eq_foldl {acts : List SeqAct} {last : SeqAct} (hbusy : s.busy = false)
    (hbus : usesBus i = true → s.parked = false) (hwaits : s.hostWaits = true) (hsteps : stepsOf i = acts ++ [last])
    (hrunning : ∀ act ∈ acts, KeepsRunning act) (hidle : ∀ s, (last s).phase = .idle) :
    exec i s = .next (last (acts.foldl (fun s act => (act s).bump) (s.accepted.enter i))) := by
  rw [exec_of_accepted hbusy hbus]
  exact congrArg _ (runSteps_eq_foldl (n := 0) (hostWaits_enter i hwaits) rfl hsteps hrunning hidle)

/-- The command started in `s₀` is before STEP `n` in the state `s`, and the host does not interrupt it. -/
structure Carries (s₀ : State) (i : Instr) (n : Nat) (s : State) : Prop where
  exec : exec i s₀ = .next (runSteps (stepsOf i) (maxSteps - n) s)
  phase : s.phase = .run i (BitVec.ofNat 4 n)
  waits : s.hostWaits = true

theorem Carries.start (hbusy : s.busy = false) (hbus : usesBus i = true → s.parked = false)
    (hwaits : s.hostWaits = true) : Carries s i 0 (s.accepted.enter i) :=
  ⟨exec_of_accepted hbusy hbus, rfl, hostWaits_enter i hwaits⟩

theorem Carries.next {act : SeqAct} {new : List Event} {k : Nat} {t : State} (h : Carries s₀ i n s)
    (hact : (stepsOf i)[n]? = some act) (hgoes : GoesOn act s new k) (ht : (act s).bump = t) :
    Carries s₀ i (n + 1) t := by
  subst ht
  refine ⟨?_, ?_, (hostWaits_congr hgoes.program hgoes.hpc).trans h.waits⟩
  · rw [h.exec, runSteps_at h.waits h.phase hact]
  · rw [State.bump_phase, hgoes.phase, h.phase, Phase.next, BitVec.ofNat_add]

theorem Carries.ends {act : SeqAct} {t : State} (h : Carries s₀ i n s) (hact : (stepsOf i)[n]? = some act)
    (ht : act s = t) (hidle : t.phase = .idle) : Machine.exec i s₀ = .next t := by
  subst ht
  rw [h.exec, runSteps_at h.waits h.phase hact, bump_of_idle hidle, runSteps_of_idle _ _ hidle]

end Sys2Proof.Machine
end

section
/-! SUPPORT. Each command that the host does not interrupt, as one equation of whole states (40_crc.md R85,
41_smbus_codec.md R89 to R92, 42_sleep_wake.md R94). -/

namespace Sys2Proof.Machine

variable {s : State}

theorem exec_crcStep_eq (seed data : Byte) (hbusy : s.busy = false) (hwaits : s.hostWaits = true) :
    exec (.crcStep seed data) s =
      .next { s with busy := false, phase := .idle, ok := true, err := .none, crc := crc8Step seed data } :=
  exec_eq_foldl (acts := []) (last := fun s => succeed { s with crc := crc8Step seed data }) hbusy (by simp [usesBus])
    hwaits rfl (List.forall_mem_nil _) fun _ => rfl

theorem exec_setAddr_eq (a8 : Byte) (hbusy : s.busy = false) (hwaits : s.hostWaits = true) :
    exec (.setAddr a8) s =
      .next (if legalAddr a8 = true then
          { s with addr := lowSeven a8, busy := false, phase := .idle, ok := true, err := .none }
        else { s with busy := false, phase := .idle, ok := false, err := .badArg }) := by
  rw [exec_eq_foldl (acts := []) (last := setAddrAct a8) hbusy (by simp [usesBus]) hwaits rfl
    (List.forall_mem_nil _) fun s => (ended_setAddrAct a8 s).phase]
  exact congrArg _ (setAddrAct_eq a8 _)

theorem probeSteps_dropLast_keepRunning : ∀ act ∈ probeSteps.dropLast, KeepsRunning act := by
  simp only [probeSteps, List.dropLast_cons_cons, List.dropLast_singleton, List.forall_mem_singleton]
  exact fun _ => ⟨rfl, rfl, rfl⟩

theorem writeWordSteps_dropLast_keepRunning (reg : Byte) (w : Word16) :
    ∀ act ∈ (writeWordSteps reg w).dropLast, KeepsRunning act := by
  simp only [writeWordSteps, List.dropLast_cons_cons, List.dropLast_singleton, List.forall_mem_cons]
  refine ⟨?_, ?_, ?_, ?_, ?_, ?_, List.forall_mem_nil _⟩ <;> exact fun _ => ⟨rfl, rfl, rfl⟩

theorem sleepSteps_dropLast_keepRunning : ∀ act ∈ sleepSteps.dropLast, KeepsRunning act := by
  simp only [sleepSteps, List.dropLast_cons_cons, List.dropLast_singleton, List.forall_mem_cons]
  refine ⟨?_, ?_, ?_, ?_, ?_, ?_, List.forall_mem_nil _⟩ <;> exact fun _ => ⟨rfl, rfl, rfl⟩

theorem exec_probe_eq (hbusy : s.busy = false) (hparked : s.parked = false) (hwaits : s.hostWaits = true) :
    exec .probe s =
      .next { s with
        busy := false, phase := .idle
        ok := decide (s.drawAt 0 = 0#8), err := if s.drawAt 0 = 0#8 then .none else .nak
        bmStatus := s.drawAt 0
        trace := s.trace ++ [.bmBegin s.addr, .bmEnd true (s.drawAt 0)]
        draws := s.draws.drop 1, drawCount := s.drawCount + 1 } := by
  rw [exec_eq_foldl (last := finalEnd) hbusy (fun _ => hparked) hwaits rfl probeSteps_dropLast_keepRunning
    finalEnd_phase]
  simp [probeSteps, finalEnd_eq, bmBegin_eq, State.drawAt]

theorem exec_writeWord_eq (reg : Byte) (w : Word16) (hbusy : s.busy = false) (hparked : s.parked = false)
    (hwaits : s.hostWaits = true) :
    exec (.writeWord reg w) s =
      .next { s with
        busy := false, phase := .idle
        ok := decide (s.drawAt 0 = 0#8), err := if s.drawAt 0 = 0#8 then .none else .nak
        bmStatus := s.drawAt 0, crc := pec (writeStream s.addr reg w)
        trace := s.trace ++ [.bmBegin s.addr, .bmWrite reg, .bmWrite (lsbOf w), .bmWrite (msbOf w),
          .bmWrite (pec (writeStream s.addr reg w)), .bmEnd true (s.drawAt 0)]
        draws := s.draws.drop 1, drawCount := s.drawCount + 1 } := by
  rw [exec_eq_foldl (last := finalEnd) hbusy (fun _ => hparked) hwaits rfl (writeWordSteps_dropLast_keepRunning reg w)
    finalEnd_phase]
  simp [writeWordSteps, finalEnd_eq, bmBegin_eq, bmWrite_eq, writePec, State.drawAt]

theorem exec_sleep_eq (hbusy : s.busy = false) (hparked : s.parked = false) (hwaits : s.hostWaits = true) :
    exec .sleep s =
      .next { s with
        busy := false, phase := .idle
        ok := decide (s.drawAt 0 = 0#8), err := if s.drawAt 0 = 0#8 then .none else .nak
        bmStatus := s.drawAt 0, parked := true, sclMode := .outputLow, sdaMode := .input
        crc := pec (sleepStream s.addr)
        trace := s.trace ++ [.bmBegin s.addr, .bmWrite Config.sleepCmd, .bmWrite (pec (sleepStream s.addr)),
          .bmEnd true (s.drawAt 0), .gpio .scl .outputLow, .gpio .sda .input]
        draws := s.draws.drop 1, drawCount := s.drawCount + 1 } := by
  rw [exec_eq_foldl (last := sleepPark) hbusy (fun _ => hparked) hwaits rfl sleepSteps_dropLast_keepRunning
    sleepPark_phase]
  simp [sleepSteps, sleepPark_eq, bmBegin_eq, bmWrite_eq, bmEndRecorded_eq, gpio_scl_eq, GpioMode.toLineMode, sleepPec,
    State.drawAt]
  exact ⟨rfl, rfl⟩

/-! ### READ_WORD, as far as its answers let it go -/

/-- The state `s` with a READ_WORD before STEP `n`, which has issued `es`, taken `k` answers and recorded a status. -/
def State.reading (s : State) (reg : Byte) (n : Nat) (es : List Event) (k : Nat) (status : Byte) : State :=
  { s with busy := true, ok := false, err := .none, phase := .run (.readWord reg) (BitVec.ofNat 4 n)
           trace := s.trace ++ es, draws := s.draws.drop k, drawCount := s.drawCount + k, bmStatus := status }

theorem State.reading_drawAt (reg : Byte) (n : Nat) (es : List Event) (k : Nat) (status : Byte) (j : Nat) :
    (s.reading reg n es k status).drawAt j = s.drawAt (k + j) :=
  State.drawAt_of_drop rfl rfl j

section
variable {reg : Byte} (hbusy : s.busy = false) (hparked : s.parked = false) (hwaits : s.hostWaits = true)
include hbusy hparked hwaits

theorem readWord_carries_select :
    Carries s (.readWord reg) 2 (s.reading reg 2 [.bmBegin s.addr, .bmWrite reg] 0 s.bmStatus) :=
  Carries.start hbusy (fun _ => hparked) hwaits
    |>.next rfl (bmBegin_goesOn rfl) rfl
    |>.next rfl (bmWrite_goesOn rfl)
      (by simp [State.reading, bmBegin_eq, bmWrite_eq, State.bump, Phase.next, State.enter, State.accepted])

theorem exec_readWord_nak (hstatus : s.drawAt 0 ≠ 0#8) :
    exec (.readWord reg) s =
      .next { s with
        busy := false, phase := .idle, ok := false, err := .nak, bmStatus := s.drawAt 0
        trace := s.trace ++ [.bmBegin s.addr, .bmWrite reg, .bmEnd false (s.drawAt 0)]
        draws := s.draws.drop 1, drawCount := s.drawCount + 1 } := by
  refine (readWord_carries_select hbusy hparked hwaits).ends rfl ?_ rfl
  rw [readSelect_eq, State.reading_drawAt, if_neg hstatus, bmEndRecorded_eq, State.reading_drawAt]
  simp [State.reading, raise_eq]

section
variable (hstatus : s.drawAt 0 = 0#8)
include hstatus

theorem readWord_carries_request :
    Carries s (.readWord reg) 3 (s.reading reg 3 [.bmBegin s.addr, .bmWrite reg, .bmEnd false 0#8] 1 0#8) := by
  have hdraw := (s.reading_drawAt reg 2 [.bmBegin s.addr, .bmWrite reg] 0 s.bmStatus 0).trans hstatus
  refine (readWord_carries_select hbusy hparked hwaits).next rfl (readSelect_goesOn hdraw) ?_
  rw [readSelect_eq, if_pos hdraw, bmEndRecorded_eq, hdraw]
  simp [State.reading, State.bump, Phase.next]

theorem exec_readWord_short (hcount : s.drawAt 1 ≠ 3#8) :
    exec (.readWord reg) s =
      .next { s with
        busy := false, phase := .idle, ok := false, err := .shortRead, bmStatus := 0#8
        trace := s.trace ++ [.bmBegin s.addr, .bmWrite reg, .bmEnd false 0#8, .bmRequest s.addr 3#8 (s.drawAt 1)]
        draws := s.draws.drop 2, drawCount := s.drawCount + 2 } := by
  refine (readWord_carries_request hbusy hparked hwaits hstatus).ends rfl ?_ rfl
  rw [readRequest_eq, State.reading_drawAt, if_neg hcount, bmRequest_eq, State.reading_drawAt]
  simp [-List.drop_one, ← List.drop_one, State.reading, raise_eq, Config.readLen]

variable (hcount : s.drawAt 1 = 3#8)
include hcount

theorem readWord_carries_check :
    Carries s (.readWord reg) 7
      { s.reading reg 7 [.bmBegin s.addr, .bmWrite reg, .bmEnd false 0#8, .bmRequest s.addr 3#8 3#8,
          .bmRead (s.drawAt 2), .bmRead (s.drawAt 3), .bmRead (s.drawAt 4)] 5 0#8 with
        lsb := s.drawAt 2, msb := s.drawAt 3, pecRx := s.drawAt 4 } := by
  have hdraw := (s.reading_drawAt reg 3 [.bmBegin s.addr, .bmWrite reg, .bmEnd false 0#8] 1 0#8 0).trans hcount
  refine (readWord_carries_request hbusy hparked hwaits hstatus).next rfl (readRequest_goesOn rfl hdraw) rfl
    |>.next rfl (readLsb_goesOn rfl) rfl
    |>.next rfl (readMsb_goesOn rfl) rfl
    |>.next rfl (readPec_goesOn rfl) ?_
  rw [readRequest_eq, if_pos hdraw, bmRequest_eq, hdraw]
  simp [-List.drop_one, ← List.drop_one, readLsb_eq, readMsb_eq, readPec_eq, State.reading, State.bump, Phase.next,
    Config.readLen, State.drawAt]

/-- STEP 7 compares the PEC of the stream with the one received, both of which are shown in PEC. -/
theorem exec_readWord_checked :
    exec (.readWord reg) s = .next
      (let received : State := { s with
        busy := false, phase := .idle, ok := false, err := .pecMismatch, bmStatus := 0#8
        lsb := s.drawAt 2, msb := s.drawAt 3, pecRx := s.drawAt 4
        crc := pec (readStream s.addr reg (s.drawAt 2) (s.drawAt 3))
        trace := s.trace ++ [.bmBegin s.addr, .bmWrite reg, .bmEnd false 0#8, .bmRequest s.addr 3#8 3#8,
          .bmRead (s.drawAt 2), .bmRead (s.drawAt 3), .bmRead (s.drawAt 4)]
        draws := s.draws.drop 5, drawCount := s.drawCount + 5 }
      if pec (readStream s.addr reg (s.drawAt 2) (s.drawAt 3)) = s.drawAt 4 then
        { received with ok := true, err := .none, rdata := wordOf (s.drawAt 3) (s.drawAt 2) }
      else received) :=
  (readWord_carries_check hbusy hparked hwaits hstatus hcount).ends rfl (readCheck_eq reg _) (by split <;> rfl)

end

end

end Sys2Proof.Machine
end

section
/-! The statements on commands that the host does not interrupt (O8 to O18). -/

namespace Sys2Proof.Machine

/-- Settles O8: the one action of CRC_STEP is its end. -/
theorem crcStepCompletes : Obligations.CrcStepCompletes := fun seed data _ => exec_crcStep_eq seed data

/-- Settles O9: 1 to 127 is the range of SET_ADDR. -/
theorem setAddrLoadsAddr : Obligations.SetAddrLoadsAddr := by
  intro a8 s hbusy hwaits hlow hhigh
  rw [exec_setAddr_eq a8 hbusy hwaits, if_pos ((legalAddr_iff a8).mpr ⟨hlow, hhigh⟩)]
  rfl

/-- Settles O10: 0 and everything from 0x80 on is out of the range. -/
theorem setAddrRejectsBadArg : Obligations.SetAddrRejectsBadArg := by
  intro a8 s hbusy hwaits hbad
  have hillegal : ¬ legalAddr a8 = true := by
    rw [legalAddr_iff]
    rcases hbad with rfl | hhigh
    · simp
    · omega
  rw [exec_setAddr_eq a8 hbusy hwaits, if_neg hillegal]

/-- Settles O11: both outcomes are in the equation of PROBE. -/
theorem probeCompletes : Obligations.ProbeCompletes := fun _ => exec_probe_eq

/-- Settles O12: the check of STEP 7 succeeds. -/
theorem readWordSucceeds : Obligations.ReadWordSucceeds := by
  intro reg s hbusy hparked hwaits hstatus hcount hpec
  have hmatch : pec (readStream s.addr reg (s.drawAt 2) (s.drawAt 3)) = s.drawAt 4 := hpec
  rw [exec_readWord_checked hbusy hparked hwaits hstatus hcount]
  simp only [hmatch, if_true]
  rfl

/-- Settles O13: STEP 2 ends the command. -/
theorem readWordNak : Obligations.ReadWordNak := fun _ _ => exec_readWord_nak

/-- Settles O14: STEP 3 ends the command. -/
theorem readWordShort : Obligations.ReadWordShort := fun _ _ => exec_readWord_short

/-- Settles O15: the check of STEP 7 fails. -/
theorem readWordPecMismatch : Obligations.ReadWordPecMismatch := by
  intro reg s hbusy hparked hwaits hstatus hcount hpec
  rw [exec_readWord_checked hbusy hparked hwaits hstatus hcount]
  exact congrArg _ (if_neg hpec)

/-- Settles O16: both outcomes are in the equation of WRITE_WORD. -/
theorem writeWordCompletes : Obligations.WriteWordCompletes := fun reg w _ => exec_writeWord_eq reg w

/-- Settles O17: both outcomes are in the equation of SLEEP. -/
theorem sleepParksAndCompletes : Obligations.SleepParksAndCompletes := fun _ => exec_sleep_eq

/-- Settles O18: WAKE looks at neither PARKED nor its status. -/
theorem wakeCompletes : Obligations.WakeCompletes := fun _ => exec_wake_eq

end Sys2Proof.Machine
end

section
/-! SUPPORT. How a run of a command stops, and that it does not look at the host but for the lines that are due
(10_state.md R39, 20_memory.md R61, log entry 1). -/

namespace Sys2Proof.Machine

variable {i : Instr} {s t : State}

theorem exec_of_busy (i : Instr) (hbusy : s.busy = true) : exec i s = .next (s.recordFault .cmdWhileBusy) := by
  obtain ⟨t, ht⟩ := exec_isNext i s
  rcases exec_cases ht with ⟨-, rfl⟩ | ⟨h, -⟩ | ⟨h, -⟩
  · exact ht
  · simp [hbusy] at h
  · simp [hbusy] at h

theorem exec_of_parked (hbus : usesBus i = true) (hbusy : s.busy = false) (hparked : s.parked = true) :
    exec i s = .next (s.accepted.recordFault .busWhileParked) := by
  obtain ⟨t, ht⟩ := exec_isNext i s
  rcases exec_cases ht with ⟨h, -⟩ | ⟨-, -, -, rfl⟩ | ⟨-, h, -⟩
  · simp [hbusy] at h
  · exact ht
  · simp [h hbus] at hparked

theorem usesBus_iff (i : Instr) :
    usesBus i = true ↔ i = .probe ∨ (∃ reg, i = .readWord reg) ∨ (∃ reg w, i = .writeWord reg w) ∨ i = .sleep := by
  cases i <;> simp [usesBus]

/-! ### The end of a run -/

/-- With fuel for the rest of its list a command ends, unless a host line comes due. -/
theorem runSteps_idle_or_due {fuel : Nat} {n : BitVec 4} (hphase : s.phase = .run i n)
    (hn : n.toNat < (stepsOf i).length) (hfuel : (stepsOf i).length ≤ n.toNat + fuel) :
    (runSteps (stepsOf i) fuel s).phase = .idle ∨ (runSteps (stepsOf i) fuel s).hostDue = true := by
  induction fuel generalizing s n with
  | zero => omega
  | succ fuel ih =>
    cases hdue : s.hostDue with
    | true =>
      rw [runSteps_of_hostDue _ _ hdue]
      exact .inr hdue
    | false =>
      have hact : (stepsOf i)[n.toNat]? = some (stepsOf i)[n.toNat] := List.getElem?_eq_getElem hn
      rw [runSteps_succ _ _ hphase hdue, seqTick_of_get _ hphase hact]
      rcases act_control hact s with ⟨hnext, hsame⟩ | hended
      · refine ih (bump_phase_of_run (hsame.phase.trans hphase)) ?_ ?_ <;> rw [toNat_add_one hn] <;> omega
      · rw [bump_of_idle hended.phase, runSteps_of_idle _ _ hended.phase]
        exact .inl hended.phase

/-- A run begun by acceptance ends with BUSY = 0 and PHASE idle, or stops with BUSY = 1 for a host line that is due. -/
theorem runSteps_enter_ends (i : Instr) (s : State) :
    let t := runSteps (stepsOf i) maxSteps (s.accepted.enter i)
    (t.busy = false ∧ t.phase = .idle) ∨ (t.busy = true ∧ t.hostDue = true) := by
  have hpos : (0#4).toNat < (stepsOf i).length := by cases i <;> exact Nat.succ_pos _
  have hfuel : (stepsOf i).length ≤ (0#4).toNat + maxSteps := by simpa using length_stepsOf_le i
  have stands : Stands i (fun _ u => u.busy = true) (fun u => u.busy = false)
      (runSteps (stepsOf i) maxSteps (s.accepted.enter i)) := by
    refine runSteps_stands (fun n act u hact _ hbusy => ?_) maxSteps (.inr ⟨0#4, rfl, rfl⟩)
    exact (act_control hact u).imp (fun ⟨_, hsame⟩ => ⟨hsame, hsame.busy.trans hbusy⟩)
      fun hended => ⟨hended, hended.busy⟩
  rcases stands with ⟨hidle, hbusy⟩ | ⟨n, hphase, hbusy⟩
  · exact .inl ⟨hbusy, hidle⟩
  · rcases runSteps_idle_or_due (s := s.accepted.enter i) rfl hpos hfuel with hidle | hdue
    · simp [hphase] at hidle
    · exact .inr ⟨hbusy, hdue⟩

theorem hostWaits_runSteps (i : Instr) (fuel : Nat) (s : State) :
    (runSteps (stepsOf i) fuel s).hostWaits = s.hostWaits :=
  hostWaits_congr (congrArg Outside.program (runSteps_outside i fuel s))
    (congrArg Outside.hpc (runSteps_outside i fuel s))

/-! ### The tick beside another host -/

theorem seqTick_withOutside (i : Instr) (s : State) (o : Outside) :
    seqTick (stepsOf i) (s.withOutside o) = (seqTick (stepsOf i) s).withOutside o := by
  cases hphase : s.phase with
  | idle =>
    have hphase' : (s.withOutside o).phase = .idle := hphase
    rw [seqTick_of_idle _ hphase, seqTick_of_idle _ hphase']
  | run j n =>
    have hphase' : (s.withOutside o).phase = .run j n := hphase
    cases hact : (stepsOf i)[n.toNat]? with
    | none => simp [seqTick, hphase, hphase', hact]
    | some act =>
      rw [seqTick_of_get _ hphase hact, seqTick_of_get _ hphase' hact,
        act_withOutside i act (List.mem_of_getElem? hact)]
      rfl

theorem seqTick_outside (i : Instr) (s : State) : (seqTick (stepsOf i) s).outside = s.outside := by
  rw [show seqTick (stepsOf i) s = (seqTick (stepsOf i) s).withOutside s.outside from
    seqTick_withOutside i s s.outside]
  exact State.outside_withOutside _ _

/-- A run beside a host with the same lines to come does the same to the block. -/
theorem runSteps_withOutside (i : Instr) (fuel : Nat) (s : State) (o : Outside) (hprogram : o.program = s.program)
    (hhpc : o.hpc = s.hpc) :
    runSteps (stepsOf i) fuel (s.withOutside o) = (runSteps (stepsOf i) fuel s).withOutside o := by
  induction fuel generalizing s with
  | zero => rfl
  | succ fuel ih =>
    have hdue : (s.withOutside o).hostDue = s.hostDue := by
      simp [State.hostDue, State.nextLine, State.withOutside, hprogram, hhpc]
    have hphase : (s.withOutside o).phase = s.phase := rfl
    have htick := seqTick_outside i s
    simp only [runSteps, hdue, hphase]
    split
    · rfl
    · rw [seqTick_withOutside, ih]
      · exact hprogram.trans (congrArg Outside.program htick).symm
      · exact hhpc.trans (congrArg Outside.hpc htick).symm

/-! ### A run as an iteration of the tick -/

/-- A run is some number of ticks. -/
theorem exists_iterate_eq_runSteps (steps : List SeqAct) (fuel : Nat) (s : State) :
    ∃ k, runSteps steps fuel s = (seqTick steps)^[k] s := by
  induction fuel generalizing s with
  | zero => exact ⟨0, rfl⟩
  | succ fuel ih =>
    unfold runSteps
    split
    · exact ⟨0, rfl⟩
    · obtain ⟨k, hk⟩ := ih (seqTick steps s)
      exact ⟨k + 1, hk⟩

/-- Where the host waits, a run is all its ticks. -/
theorem runSteps_eq_iterate (i : Instr) (fuel : Nat) (hwaits : s.hostWaits = true) :
    runSteps (stepsOf i) fuel s = (seqTick (stepsOf i))^[fuel] s := by
  induction fuel generalizing s with
  | zero => rfl
  | succ fuel ih =>
    have htick := seqTick_outside i s
    have hwaits' : (seqTick (stepsOf i) s).hostWaits = true :=
      (hostWaits_congr (congrArg Outside.program htick) (congrArg Outside.hpc htick)).trans hwaits
    rw [Function.iterate_succ_apply, ← ih hwaits']
    cases hphase : s.phase with
    | idle => rw [seqTick_of_idle _ hphase, runSteps_of_idle _ _ hphase, runSteps_of_idle _ _ hphase]
    | run j n => rw [runSteps_succ _ _ hphase (hostDue_of_hostWaits hwaits)]

/-- No more than `k` ticks are left of the command. -/
def Within (i : Instr) (k : Nat) (s : State) : Prop :=
  s.phase = .idle ∨ ∃ n, s.phase = .run i n ∧ (stepsOf i).length ≤ n.toNat + k

theorem Within.tick {k : Nat} (h : Within i (k + 1) s) : Within i k (seqTick (stepsOf i) s) := by
  rcases h with hidle | ⟨n, hphase, hleft⟩
  · rw [seqTick_of_idle _ hidle]
    exact .inl hidle
  · cases hact : (stepsOf i)[n.toNat]? with
    | none =>
      have hpast := List.getElem?_eq_none_iff.mp hact
      rw [seqTick_of_length_le hphase hpast]
      exact .inr ⟨n, hphase, Nat.le_add_right_of_le hpast⟩
    | some act =>
      rw [seqTick_of_get _ hphase hact]
      rcases act_control hact s with ⟨hn, hsame⟩ | hended
      · refine .inr ⟨n + 1#4, bump_phase_of_run (hsame.phase.trans hphase), ?_⟩
        rw [toNat_add_one (Nat.lt_of_succ_lt hn)]
        omega
      · rw [bump_of_idle hended.phase]
        exact .inl hended.phase

/-- After as many ticks as are left the tick does nothing. -/
theorem Within.iterate_fixed {k : Nat} (h : Within i k s) :
    Function.IsFixedPt (seqTick (stepsOf i)) ((seqTick (stepsOf i))^[k] s) := by
  induction k generalizing s with
  | zero =>
    rcases h with hidle | ⟨n, hphase, hpast⟩
    · exact seqTick_of_idle _ hidle
    · exact seqTick_of_length_le hphase hpast
  | succ k ih => exact ih h.tick

theorem within_maxSteps {n : BitVec 4} (hphase : s.phase = .run i n) : Within i maxSteps s :=
  .inr ⟨n, hphase, Nat.le_add_left_of_le (length_stepsOf_le i)⟩

theorem Within.iterate (k : Nat) (h : Within i maxSteps s) : Within i maxSteps ((seqTick (stepsOf i))^[k] s) := by
  have more {k : Nat} {s : State} (h : Within i k s) : Within i (k + 1) s :=
    h.imp_right fun ⟨n, hphase, hleft⟩ => ⟨n, hphase, Nat.le_succ_of_le hleft⟩
  induction k generalizing s with
  | zero => exact h
  | succ k ih => exact ih (more h).tick

theorem resume_of_idle (hidle : s.phase = .idle) : resume s = s := by
  rw [resume, hidle]

theorem resume_of_run {n : BitVec 4} (hphase : s.phase = .run i n) :
    resume s = runSteps (stepsOf i) maxSteps s := by
  rw [resume, hphase]

/-- Resuming the command beside a host that waits is all its ticks. -/
theorem resume_eq_iterate (h : Within i maxSteps s) (hwaits : s.hostWaits = true) :
    resume s = (seqTick (stepsOf i))^[maxSteps] s := by
  rcases h with hidle | ⟨n, hphase, -⟩
  · rw [resume_of_idle hidle, Function.iterate_fixed (seqTick_of_idle _ hidle)]
  · rw [resume_of_run hphase, runSteps_eq_iterate i maxSteps hwaits]

theorem resume_outside (s : State) : (resume s).outside = s.outside := by
  cases hphase : s.phase with
  | idle => rw [resume_of_idle hphase]
  | run i n => rw [resume_of_run hphase, runSteps_outside]

theorem resume_withOutside (s : State) (o : Outside) (hprogram : o.program = s.program) (hhpc : o.hpc = s.hpc) :
    resume (s.withOutside o) = (resume s).withOutside o := by
  cases hphase : s.phase with
  | idle =>
    have hphase' : (s.withOutside o).phase = .idle := hphase
    rw [resume_of_idle hphase, resume_of_idle hphase']
  | run i n =>
    have hphase' : (s.withOutside o).phase = .run i n := hphase
    rw [resume_of_run hphase, resume_of_run hphase', runSteps_withOutside i maxSteps s o hprogram hhpc]

/-! ### The host's lines taken away -/

/-- The state without the host's lines. -/
def State.unhosted (s : State) : State := { s with program := [] }

theorem hostWaits_unhosted (s : State) : s.unhosted.hostWaits = true := by
  simp [State.hostWaits, State.nextLine, State.unhosted]

theorem seqTick_unhosted (i : Instr) (s : State) :
    (seqTick (stepsOf i) s).unhosted = seqTick (stepsOf i) s.unhosted := by
  have same : (seqTick (stepsOf i) s).unhosted =
      (seqTick (stepsOf i) s).withOutside { (seqTick (stepsOf i) s).outside with program := [] } := rfl
  rw [same, seqTick_outside, ← seqTick_withOutside]
  rfl

/-- A command that stopped somewhere and goes on without the host takes the ticks it would have taken at once. -/
theorem resume_unhosted_resume (s : State) : resume (resume s).unhosted = resume s.unhosted := by
  cases hphase : s.phase with
  | idle => rw [resume_of_idle hphase]
  | run i n =>
    obtain ⟨k, hk⟩ := exists_iterate_eq_runSteps (stepsOf i) maxSteps s
    have hwithin : Within i maxSteps s.unhosted := within_maxSteps hphase
    have hstopped : (resume s).unhosted = (seqTick (stepsOf i))^[k] s.unhosted := by
      rw [resume_of_run hphase, hk]
      exact Function.Semiconj.iterate_right (seqTick_unhosted i) k s
    have hwaits : ((seqTick (stepsOf i))^[k] s.unhosted).hostWaits = true := hstopped ▸ hostWaits_unhosted _
    calc resume (resume s).unhosted
        = (seqTick (stepsOf i))^[maxSteps] ((seqTick (stepsOf i))^[k] s.unhosted) := by
          rw [hstopped, resume_eq_iterate (hwithin.iterate k) hwaits]
      _ = (seqTick (stepsOf i))^[k] ((seqTick (stepsOf i))^[maxSteps] s.unhosted) :=
          Function.Commute.iterate_iterate_self _ maxSteps k _
      _ = (seqTick (stepsOf i))^[maxSteps] s.unhosted := Function.iterate_fixed hwithin.iterate_fixed k
      _ = resume s.unhosted := (resume_eq_iterate hwithin (hostWaits_unhosted s)).symm

end Sys2Proof.Machine
end

section
/-! The statements on acceptance and on the end of a command (O22, O23, O36 to O38). -/

namespace Sys2Proof.Machine

/-- Settles O22: the parked check comes after BUSY, OK and ERR are set. -/
theorem busCommandWhileParkedIsRecorded : Obligations.BusCommandWhileParkedIsRecorded :=
  fun i _ hbus hbusy hparked => exec_of_parked ((usesBus_iff i).mpr hbus) hbusy hparked

/-- Settles O36: there is fuel for the whole list, and the last action ends the command. -/
theorem commandRunsToItsEnd : Obligations.CommandRunsToItsEnd := by
  intro i s t hbusy hbus h
  rw [exec_of_accepted hbusy hbus] at h
  obtain rfl := Host.Outcome.next.inj h
  exact runSteps_enter_ends i s

/-- Settles O23: the checks of BUSY, of the word and of PARKED in turn, and then the run of the command. -/
theorem acceptanceOrder : Obligations.AcceptanceOrder := by
  intro c s
  refine ⟨fun hbusy => ?_, fun e hbusy hdec => ?_, fun i hbusy hdec => ?_⟩
  · cases hdec : decode c with
    | ok i => simp only [writeCmd, hdec, exec_of_busy i hbusy]; rfl
    | error e => simp only [writeCmd, hdec, illegalWord, whenNotBusy_of_busy hbusy]; rfl
  · simp only [writeCmd, hdec, illegalWord_of_not_busy hbusy, ← hbusy]
  · have hexec : writeCmd c s = exec i s := by simp only [writeCmd, hdec]
    rw [hexec]
    split
    · rename_i hstopped
      exact exec_of_parked ((usesBus_iff i).mpr hstopped.1) hbusy hstopped.2
    · rename_i hgoes
      have hbus (hu : usesBus i = true) : s.parked = false :=
        Bool.eq_false_iff.mpr fun hparked => hgoes ⟨(usesBus_iff i).mp hu, hparked⟩
      refine ⟨_, exec_of_accepted hbusy hbus, rfl, fun hwaits => ?_⟩
      rcases runSteps_enter_ends i s with hended | ⟨-, hdue⟩
      · exact hended
      · have hwaits' := (hostWaits_runSteps i maxSteps _).trans (hostWaits_enter i hwaits)
        simp [hostDue_of_hostWaits hwaits'] at hdue

/-- Settles O37: both sides take all the ticks of the command, in two runs or in one. -/
theorem interruptedCommandEndsTheSame : Obligations.InterruptedCommandEndsTheSame := resume_unhosted_resume

/-- Settles O38: a read changes the host's side only, and not its lines. -/
theorem hostReadDoesNotDisturbCommand : Obligations.HostReadDoesNotDisturbCommand := by
  intro s off
  have hread : (afterRead off s).outside = { s.outside with
      hostLog := (afterRead off s).hostLog, freeReadCount := (afterRead off s).freeReadCount } := rfl
  calc resume (afterRead off s)
      = (resume s).withOutside (afterRead off s).outside :=
        resume_withOutside s (afterRead off s).outside rfl rfl
    _ = { resume s with
          hostLog := (afterRead off s).hostLog, freeReadCount := (afterRead off s).freeReadCount } := by
        rw [hread, ← resume_outside s]
        rfl

end Sys2Proof.Machine
end

section
/-! SUPPORT. Commands in two states that agree in registers, trace, FAULTS, timing and answers (20_memory.md R60). -/

namespace Sys2Proof.Machine

/-- The states agree in all that a command looks at, and neither host interrupts one. -/
structure Agree (s s' : State) : Prop where
  runs : runsAgree s s'
  timing : s'.timing = s.timing
  answers : ∀ k, s'.drawAt k = s.drawAt k
  waits : s.hostWaits = true
  waits' : s'.hostWaits = true

/-- The command answers states that agree. -/
def AnswersAgree (i : Instr) (s s' : State) : Prop :=
  ∃ t t', exec i s = .next t ∧ exec i s' = .next t' ∧ runsAgree t t'

variable {i : Instr} {s s' : State}

theorem Agree.answersAgree_of_busy (h : Agree s s') (hbusy : s.busy = true) : AnswersAgree i s s' := by
  obtain ⟨⟨⟨hb, hregs⟩, htrace, hfaults⟩, -⟩ := h
  exact ⟨_, _, exec_of_busy i hbusy, exec_of_busy i (hb.trans hbusy), ⟨hb, hregs⟩, htrace,
    by simp [hfaults]⟩

/-- The commands that use no bus: each run is one equation. -/
theorem Agree.answersAgree_of_free (h : Agree s s') (hbusy : s.busy = false) (hfree : usesBus i = false) :
    AnswersAgree i s s' := by
  obtain ⟨⟨⟨hb, hok, hp, herr, hbmStatus, hrdata, haddr, hcrc, hpecRx, hscl, hsda⟩, htrace, hfaults⟩, htiming, hanswers,
    hwaits, hwaits'⟩ := h
  have hbusy' := hb.trans hbusy
  cases i with
  | crcStep seed data =>
    refine ⟨_, _, exec_crcStep_eq _ _ hbusy hwaits, exec_crcStep_eq _ _ hbusy' hwaits', ?_⟩
    simp [runsAgree, sameRegisters, *]
  | setAddr a8 =>
    refine ⟨_, _, exec_setAddr_eq _ hbusy hwaits, exec_setAddr_eq _ hbusy' hwaits', ?_⟩
    split <;> simp [runsAgree, sameRegisters, *]
  | wake =>
    refine ⟨_, _, exec_wake_eq hbusy hwaits, exec_wake_eq hbusy' hwaits', ?_⟩
    simp [runsAgree, sameRegisters, *]
  | probe | readWord | writeWord | sleep => cases hfree

/-- The commands that use the bus, where PARKED = 0. -/
theorem Agree.answersAgree_of_bus (h : Agree s s') (hbusy : s.busy = false) (hparked : s.parked = false)
    (hbus : usesBus i = true) : AnswersAgree i s s' := by
  obtain ⟨⟨⟨hb, hok, hp, herr, hbmStatus, hrdata, haddr, hcrc, hpecRx, hscl, hsda⟩, htrace, hfaults⟩, htiming, hanswers,
    hwaits, hwaits'⟩ := h
  have hbusy' := hb.trans hbusy
  have hparked' := hp.trans hparked
  cases i with
  | probe =>
    refine ⟨_, _, exec_probe_eq hbusy hparked hwaits, exec_probe_eq hbusy' hparked' hwaits', ?_⟩
    simp [runsAgree, sameRegisters, *]
  | writeWord reg w =>
    refine ⟨_, _, exec_writeWord_eq reg w hbusy hparked hwaits, exec_writeWord_eq reg w hbusy' hparked' hwaits', ?_⟩
    simp [runsAgree, sameRegisters, *]
  | sleep =>
    refine ⟨_, _, exec_sleep_eq hbusy hparked hwaits, exec_sleep_eq hbusy' hparked' hwaits', ?_⟩
    simp [runsAgree, sameRegisters, *]
  | readWord reg =>
    by_cases hstatus : s.drawAt 0 = 0#8
    · have hstatus' := (hanswers 0).trans hstatus
      by_cases hcount : s.drawAt 1 = 3#8
      · have hcount' := (hanswers 1).trans hcount
        refine ⟨_, _, exec_readWord_checked hbusy hparked hwaits hstatus hcount,
          exec_readWord_checked hbusy' hparked' hwaits' hstatus' hcount', ?_⟩
        simp only [hanswers, haddr]
        split <;> simp [runsAgree, sameRegisters, *]
      · have hcount' : s'.drawAt 1 ≠ 3#8 := (hanswers 1).trans_ne hcount
        refine ⟨_, _, exec_readWord_short hbusy hparked hwaits hstatus hcount,
          exec_readWord_short hbusy' hparked' hwaits' hstatus' hcount', ?_⟩
        simp [runsAgree, sameRegisters, *]
    · have hstatus' : s'.drawAt 0 ≠ 0#8 := (hanswers 0).trans_ne hstatus
      refine ⟨_, _, exec_readWord_nak hbusy hparked hwaits hstatus,
        exec_readWord_nak hbusy' hparked' hwaits' hstatus', ?_⟩
      simp [runsAgree, sameRegisters, *]
  | crcStep | setAddr | wake => cases hbus

theorem Agree.answersAgree_of_parked (h : Agree s s') (hbusy : s.busy = false) (hparked : s.parked = true)
    (hbus : usesBus i = true) : AnswersAgree i s s' := by
  obtain ⟨⟨⟨hb, -, hp, -, hregs⟩, htrace, hfaults⟩, -⟩ := h
  exact ⟨_, _, exec_of_parked hbus hbusy hparked, exec_of_parked hbus (hb.trans hbusy) (hp.trans hparked),
    ⟨rfl, rfl, hp, rfl, hregs⟩, htrace, by simp [hfaults]⟩

end Sys2Proof.Machine
end

section
/-! The statement of 20_memory.md section 4 on two runs (O39). -/

namespace Sys2Proof.Machine

/-- Settles O39: in each case of acceptance what the command answers is an equation in what the states agree in. -/
theorem equalDrawsGiveEqualRuns : Obligations.EqualDrawsGiveEqualRuns := by
  intro i s s' hruns htiming hanswers hwaits hwaits'
  have h : Agree s s' := ⟨hruns, htiming, hanswers, hwaits, hwaits'⟩
  cases hbusy : s.busy with
  | true => exact h.answersAgree_of_busy hbusy
  | false =>
    cases hbus : usesBus i with
    | false => exact h.answersAgree_of_free hbusy hbus
    | true =>
      cases hparked : s.parked with
      | true => exact h.answersAgree_of_parked hbusy hparked hbus
      | false => exact h.answersAgree_of_bus hbusy hparked hbus

end Sys2Proof.Machine
end

section
/-! SUPPORT. The check of the EEPROM duties on the entries of the host's log, one at a time
(70_reset_and_hazards.md R124, R128, log entries 23 and 26). -/

namespace Sys2Proof.Machine

variable (tm : Timing) (k : EeCheck) (es : List HostEvent)

theorem isEeprom_of_mem {reg : Byte} (h : reg = 0x20#8 ∨ reg = 0x21#8 ∨ reg = 0x24#8 ∨ reg = 0x2E#8) :
    isEeprom reg = true := by
  rcases h with rfl | rfl | rfl | rfl <;> rfl

/-- A command written to CMD counts as what it decodes to. -/
theorem eeEvent_wrote_encode (i : Instr) : eeEvent tm k (.wrote 0x00 (encode i)) = eeCommand tm k i := by
  simp [eeEvent]

theorem eepromDutyFrom_writeWord {reg : Byte} (hreg : isEeprom reg = true) (w : Word16) :
    eepromDutyFrom tm k (.wrote 0x00 (encode (.writeWord reg w)) :: es) =
      (nextEeWrite tm (stageOf reg k.stages) w).elim false fun e =>
        eepromDutyFrom tm { pending := some (reg, e), stages := withoutStage reg k.stages } es := by
  rw [eepromDutyFrom_cons, eeEvent_wrote_encode, eeCommand, if_pos hreg]
  cases nextEeWrite tm (stageOf reg k.stages) w <;> rfl

theorem eepromDutyFrom_setAddr (a8 : Byte) :
    eepromDutyFrom tm k (.wrote 0x00 (encode (.setAddr a8)) :: es) =
      eepromDutyFrom tm { k with stages := k.stages.map fun e => (e.1, e.2.addrChanged) } es := by
  rw [eepromDutyFrom_cons, eeEvent_wrote_encode]
  rfl

theorem eepromDutyFrom_ended (ok : Bool) :
    eepromDutyFrom tm k (.ended ok :: es) =
      eepromDutyFrom tm { pending := none, stages := stagesAfterWrite ok k.stages k.pending } es := rfl

theorem eepromDutyFrom_waited (n : Nat) :
    eepromDutyFrom tm k (.waited n :: es) =
      eepromDutyFrom tm { k with stages := k.stages.map fun e => (e.1, e.2.addWait n) } es := rfl

/-- The first write to a register is an erase, which must write 0x0000. -/
theorem nextEeWrite_none (w : Word16) :
    nextEeWrite tm none w = if w = 0x0000#16 then some .erase else none := by
  simp [nextEeWrite, maySettle]

/-- After an erase that counts, the program write keeps the duties exactly if both waits are complete. -/
theorem eepromDutyFrom_erased {reg : Byte} (hreg : isEeprom reg = true) (w : Word16) (m n : Nat) (ok : Bool) :
    eepromDutyFrom tm { pending := none, stages := [(reg, .erased m)] }
        [.wrote 0x00 (encode (.writeWord reg w)), .ended ok, .waited n] = true ↔
      tm.eeErase ≤ m ∧ tm.eeWrite ≤ n := by
  rw [eepromDutyFrom_writeWord tm _ _ hreg, stageOf_cons_self]
  by_cases hm : tm.eeErase ≤ m
  · simp [nextEeWrite, hm, eepromDutyFrom_ended, eepromDutyFrom_waited, eepromDutyFrom_nil, stagesAfterWrite,
      withoutStage, EeStage.addWait, EeCheck.finished]
  · simp [nextEeWrite, hm]

/-- Where no erase counts, a write is at best an erase, which is unfinished as the last write. -/
theorem eepromDutyFrom_not_erased {reg : Byte} (hreg : isEeprom reg = true) (w : Word16) (n : Nat)
    (stages : List (Byte × EeStage)) (hstage : ∀ m, stageOf reg stages ≠ some (.erased m)) :
    eepromDutyFrom tm { pending := none, stages := stages }
        [.wrote 0x00 (encode (.writeWord reg w)), .ended true, .waited n] = false := by
  rw [eepromDutyFrom_writeWord tm _ _ hreg]
  cases hnext : nextEeWrite tm (stageOf reg stages) w with
  | none => rfl
  | some e =>
    cases e with
    | program =>
      obtain ⟨m, hm, -⟩ := (nextEeWrite_program_iff ..).mp hnext
      exact absurd hm (hstage m)
    | erase => simp [eepromDutyFrom_ended, eepromDutyFrom_waited, eepromDutyFrom_nil, stagesAfterWrite,
        EeStage.addWait, EeCheck.finished]

end Sys2Proof.Machine
end

section
/-! The statement of 70_reset_and_hazards.md on the EEPROM duties (O41). -/

namespace Sys2Proof.Machine

/-- Settles O41: the first write is an erase or a breach; then the second is the program write where the erase counts,
and an unfinished erase where it does not. -/
theorem eepromDutyChecksSequence : Obligations.EepromDutyChecksSequence := by
  intro s reg v w a8 m n ok' hmem
  have hreg := isEeprom_of_mem hmem
  have begins (es : List HostEvent) :
      eepromDutyFrom s.timing { pending := none, stages := [] } (.wrote 0x00 (encode (.writeWord reg v)) :: es) =
        (decide (v = 0x0000#16) && eepromDutyFrom s.timing { pending := some (reg, .erase), stages := [] } es) := by
    rw [eepromDutyFrom_writeWord _ _ _ hreg, stageOf_nil, nextEeWrite_none]
    by_cases hv : v = 0x0000#16 <;> simp [hv, withoutStage]
  refine ⟨?_, ?_, ?_⟩ <;> simp only [State.eepromDuty, begins]
  · have hlog := eepromDutyFrom_erased s.timing hreg w m n ok'
    simpa [eepromDutyFrom_ended, eepromDutyFrom_waited, stagesAfterWrite, EeStage.addWait] using fun _ => hlog
  · have hlog := eepromDutyFrom_not_erased s.timing hreg w n [] (by simp)
    simp [eepromDutyFrom_ended, eepromDutyFrom_waited, stagesAfterWrite, hlog]
  · have hlog := eepromDutyFrom_not_erased s.timing hreg w n [(reg, .lapsed)] (by simp)
    simp [eepromDutyFrom_ended, eepromDutyFrom_waited, eepromDutyFrom_setAddr, stagesAfterWrite, EeStage.addWait,
      EeStage.addrChanged, hlog]

end Sys2Proof.Machine
end

section
/-! SUPPORT. A host access that is not a whole aligned word, and a write that starts no command (10_state.md R25,
60_exceptions.md R108). -/

namespace Sys2Proof.Machine

theorem hostAccess_malformed {off size : Nat} (h : size ≠ 4 ∨ off % 4 ≠ 0) (s : State)
    (k : Host.Outcome State Fault Refusal) : hostAccess off size s k = .next (s.recordFault .hostAccess) := by
  have hword : wholeWord off size = false := by
    rcases h with h | h <;> simp [wholeWord, h]
  simp [hostAccess, hword]

/-- CMD and the offsets above LINES read as 0 (R25, R26). -/
theorem registerWord_unused {off : Nat} (h : off = 0x00 ∨ 0x14 < off) (s : State) : registerWord off s = 0#32 := by
  obtain ⟨h1, h2, h3, h4, h5⟩ : off ≠ 0x04 ∧ off ≠ 0x08 ∧ off ≠ 0x0C ∧ off ≠ 0x10 ∧ off ≠ 0x14 := by omega
  simp [registerWord, h1, h2, h3, h4, h5]

theorem hostAct_read_unused {off : Nat} (hle : off ≤ 0x3C) (halign : off % 4 = 0) (h : off = 0x00 ∨ 0x14 < off)
    (s : State) : hostAct (.read off 4) s = .next { s with hostLog := s.hostLog ++ [.gotWord off 0#32] } := by
  have hfixed : (s.busy && unspecifiedWhileBusy off) = false := by
    have hoff : ¬ unspecifiedWhileBusy off = true := by rw [unspecifiedWhileBusy_iff]; omega
    simp [hoff]
  rw [hostAct_read_word hle halign, afterRead_of_fixed hfixed, registerWord_unused h]

/-- A read while BUSY = 0 gives the register (R24). -/
theorem hostAct_read_idle {off : Nat} (hle : off ≤ 0x3C) (halign : off % 4 = 0) {s : State} (hbusy : s.busy = false) :
    hostAct (.read off 4) s = .next { s with hostLog := s.hostLog ++ [.gotWord off (registerWord off s)] } := by
  rw [hostAct_read_word hle halign, afterRead_of_fixed (by simp [hbusy])]

theorem hostAct_write_word {off : Nat} (hle : off ≤ 0x3C) (halign : off % 4 = 0) (c : Word32) (s : State) :
    hostAct (.write off 4 c) s =
      if off = 0x00 then endLogged (writeCmd c (s.logWrite off c)) else .next (s.logWrite off c) :=
  hostAccess_word hle halign s _

theorem step_of_illformed {s : State} (h : s.timing.wf = false) : step s = .refused .illFormedTiming := by
  simp [step, nextMove, h]

end Sys2Proof.Machine
end

section
/-! The statements on the host port and on the step (O24, O27, O28, O32, O33, O35, O40). -/

namespace Sys2Proof.Machine

/-- Settles O24: FAULTS is looked at before any agent moves. -/
theorem faultedStateIsStuck : Obligations.FaultedStateIsStuck := by
  intro s htiming hfaults
  simp [step, nextMove, htiming, hfaults]

/-- Settles O27: each floor is a conjunct of `Timing.wf`. -/
theorem illFormedTimingIsRefused : Obligations.IllFormedTimingIsRefused := by
  intro s hfloor
  refine step_of_illformed (Bool.eq_false_iff.mpr fun hwf => ?_)
  simp only [Timing.wf, Bool.and_eq_true, decide_eq_true_eq] at hwf
  omega

/-- Settles O28: the reset looks at BUSY first. -/
theorem resetWhileBusyIsRefused : Obligations.ResetWhileBusyIsRefused := by
  intro s hbusy
  simp only [hostAct, hostReset, hbusy, if_true]

/-- Settles O32: CMD and unused offsets read 0, other writes than to CMD are logged only, and the access check comes
first. -/
theorem hostAccessRules : Obligations.HostAccessRules := by
  intro s
  refine ⟨hostAct_read_unused (by omega) rfl (.inl rfl) s,
    fun off hunused hle halign => hostAct_read_unused hle halign (.inr hunused) s,
    fun off c hpos hle halign => ?_, fun off size c hmalformed => ⟨hostAccess_malformed hmalformed s _,
      hostAccess_malformed hmalformed s _⟩⟩
  rw [hostAct_write_word hle halign, if_neg hpos.ne']
  rfl

/-- Settles O33: a read while BUSY = 0 gives the register's word. -/
theorem idleReadsReturnRegisters : Obligations.IdleReadsReturnRegisters :=
  ⟨fun _ hbusy => ⟨hostAct_read_idle (by omega) rfl hbusy, hostAct_read_idle (by omega) rfl hbusy,
    hostAct_read_idle (by omega) rfl hbusy, hostAct_read_idle (by omega) rfl hbusy,
    hostAct_read_idle (by omega) rfl hbusy⟩, rfl, rfl, rfl⟩

/-- Settles O35: while BUSY = 0 the host moves, and its write to CMD is `exec` with the completion logged. -/
theorem stepRunsDecodedCommand : Obligations.StepRunsDecodedCommand := by
  intro s c i during htiming hfaults hbusy hline hdec
  obtain ⟨t, hexec⟩ := exec_isNext i { s with hpc := s.hpc + 1, hostLog := s.hostLog ++ [.wrote 0x00 c] }
  have hwrite : writeCmd c (State.logWrite { s with hpc := s.hpc + 1 } 0x00 c) = .next t := by
    rw [writeCmd, hdec]
    exact hexec
  refine ⟨t, hexec, ?_⟩
  rw [step_of_not_busy htiming hfaults hbusy, hostMove, State.nextLine, hline]
  exact (hostAct_write_word (by omega) rfl c _).trans (congrArg endLogged hwrite)

/-- Settles O40: at the good end the host moves and has no line left. -/
theorem goodEndIsFinal : Obligations.GoodEndIsFinal := by
  intro s htiming hend
  simp only [State.goodEnd, Bool.and_eq_true, List.isEmpty_iff, Bool.not_eq_true', decide_eq_true_eq] at hend
  obtain ⟨⟨⟨hfaults, hbusy⟩, -⟩, hthrough⟩ := hend
  have hline : s.nextLine = none := List.getElem?_eq_none hthrough
  rw [step_of_not_busy htiming hfaults hbusy, hostMove_of_no_line hline]

end Sys2Proof.Machine
end
